-- ==== Sys2Proof/Word.lean ====
section
/-! DEFINITION. The byte, and the two conversions between bytes and natural numbers that the record
layout of the command port uses. -/

namespace Sys2Proof

/-- "A byte is an unsigned integer 0..255", bits 7 down to 0 (`00_scope.md` R6). -/
abbrev Byte := BitVec 8

/-- The byte that holds a natural number (its value when it is below 256). -/
def byte (n : Nat) : Byte := BitVec.ofNat 8 n

/-- The number two bytes stand for, high byte first. -/
def nat2 (b1 b0 : Byte) : Nat := b1.toNat * 256 + b0.toNat

/-- The number three bytes stand for, high byte first. -/
def nat3 (b2 b1 b0 : Byte) : Nat := nat2 b2 b1 * 256 + b0.toNat

/-- The number four bytes stand for, high byte first. -/
def nat4 (b3 b2 b1 b0 : Byte) : Nat := nat3 b3 b2 b1 * 256 + b0.toNat

end Sys2Proof
end

