-- ==== Sys2Proof/Syntax.lean ====
section
/-! DEFINITION. The sixteen host operations as syntax, one constructor per row of the operation table
(`30_encoding.md` R70), with the operands their rules list. Numeric operands are natural numbers, as
`10_state.md` R27 allows; `WellFormed.lean` says which fit the operand widths. -/

namespace Sys2Proof

/-- A value of the opaque type `Timeout` (`10_state.md` R14, decision D8): a code the block only hands
on. Nothing in the model computes with it. -/
structure Timeout where
  code : Nat
  deriving DecidableEq, Repr, Inhabited

/-- The seven operands of PLSC and SENDSC (`43_command_builder.md` R102). -/
structure ClockTime where
  year    : Nat
  weekday : Nat
  month   : Nat
  day     : Nat
  hour    : Nat
  minute  : Nat
  second  : Nat
  deriving DecidableEq, Repr

/-- The five fields of the start or stop operand of PLT and SENDT (`43_command_builder.md` R103). -/
structure DateTime where
  year   : Nat
  month  : Nat
  day    : Nat
  hour   : Nat
  minute : Nat
  deriving DecidableEq, Repr

/-- A host operation (`30_encoding.md` R70). Letters, pixel symbols and payload elements are bytes; a
text is a sequence of code points. -/
inductive Instr where
  /-- OPEN d, `46_session_control.md` R160 (`open` itself is a word of Lean). -/
  | openSess (d : Nat)
  /-- CLOSE, R161. -/
  | close
  /-- SETCFG maxRetry, timeout, R162. -/
  | setcfg (maxRetry : Nat) (timeout : Timeout)
  /-- ESC text, `41_character_encoder.md` R81. -/
  | esc (text : List Nat)
  /-- PACK image, `42_graphics_packer.md` R93. -/
  | pack (image : List Byte)
  /-- PLSC year, weekday, month, day, hour, minute, second, `43_command_builder.md` R102. -/
  | plsc (time : ClockTime)
  /-- PLT schedule, start, stop, pages, R103. -/
  | plt (schedule : Byte) (start stop : DateTime) (pages : List Byte)
  /-- PLG page, block, image, R104. -/
  | plg (page : Byte) (block : Nat) (image : List Byte)
  /-- CSUM payload, `44_frame_codec.md` R121. -/
  | csum (payload : List Byte)
  /-- WRAP d, payload, R123. -/
  | wrap (d : Nat) (payload : List Byte)
  /-- WRAPID n, R125. -/
  | wrapid (n : Nat)
  /-- SEND payload, `45_transport.md` R140. -/
  | send (payload : List Byte)
  /-- SENDSC, operands as PLSC, R141. -/
  | sendsc (time : ClockTime)
  /-- SENDT, operands as PLT, R142. -/
  | sendt (schedule : Byte) (start stop : DateTime) (pages : List Byte)
  /-- SENDG, operands as PLG, R143. -/
  | sendg (page : Byte) (block : Nat) (image : List Byte)
  /-- SETID n, R145. -/
  | setid (n : Nat)
  deriving DecidableEq, Repr

/-- The sixteen operations by name, without operands: the rows of the operation table. -/
inductive OpCode where
  | openSess
  | close
  | setcfg
  | esc
  | pack
  | plsc
  | plt
  | plg
  | csum
  | wrap
  | wrapid
  | send
  | sendsc
  | sendt
  | sendg
  | setid
  deriving DecidableEq, Repr

/-- Why a byte string presented at the port is not exactly the record of a host operation. -/
inductive DecodeError where
  /-- No byte at all: no operation is presented. -/
  | noOperation
  /-- "Every other value of op ... is reserved" (`30_encoding.md` R71). -/
  | reservedCode (op : Byte)
  /-- Operand bytes are still missing: the whole operation is not present yet (R72). -/
  | truncated
  /-- The record of operation `i` with further bytes after its last operand. -/
  | trailing (i : Instr) (extra : List Byte)
  deriving DecidableEq, Repr

end Sys2Proof
end

