-- ==== Sys2Proof/Config.lean ====
section
/-! DEFINITION. What an implementation fixes and what the spec leaves open: the parameters SUBST and
PAYLOAD_MAX (`00_scope.md` R5), the code of the default timeout, and the free values for what the channel
answers and for what becomes of bytes that are no operand. A constant declared `opaque` has no value any proof can see. -/

namespace Sys2Proof

/-! ### PAYLOAD_MAX -/

/-- How far PAYLOAD_MAX lies above 69, or none when payloads are unbounded ("named parameter, at least 69,
may be unbounded", `00_scope.md` R5, decision D22). Free: log entry 11. -/
opaque Config.payloadSlack : Option Nat

/-- PAYLOAD_MAX, none for unbounded. -/
def Config.payloadMax : Option Nat :=
  match Config.payloadSlack with
  | none => none
  | some k => some (69 + k)

/-- A length "exceeds a finite PAYLOAD_MAX" (`44_frame_codec.md` R121). Lengths up to 69 never do,
whatever the parameter. -/
def Config.payloadTooLong (n : Nat) : Bool :=
  !(decide (n ≤ 69)) &&
    (match Config.payloadMax with
    | none => false
    | some m => decide (m < n))

/-! ### TIMEOUT -/

/-- The default 1.0 s (`10_state.md` R14). The code 1000 that names it is a DESIGN CHOICE (log entry 12):
the type is opaque to the block and no rule reads the value. -/
def Config.timeoutDefault : Timeout := ⟨1000⟩

/-! ### The channel -/

/-- What the channel answers to the read number `k`, asked for at most `m` bytes under timeout `t`, where
the state's script says nothing: "any byte sequence ..., chosen freely at each call"
(`20_memory.md` R36). Free: log entry 5. DESIGN CHOICE, log entry 28: one constant serves every instance, so
past their scripts two instances at equal `k`, `m` and `t` get equal answers. -/
opaque Config.channelAnswer (k m : Nat) (t : Timeout) : List Byte

/-! ### The command port -/

/-- What the port presents next in place of bytes that came after the last operand of an operation: records of
any number and content, none among them. No rule says what becomes of such bytes. Free: log entry 3. DESIGN
CHOICE, log entry 3: it depends on the bytes alone, so the same bytes leave the same records each time. -/
opaque Config.extraBytes (extra : List Byte) : List (List Byte)

/-! ### SUBST, the substitution table -/

/-- The substitution table as data: keys with their tokens, keys strictly rising (`10_state.md` R22). -/
abbrev SubstTable := List (Nat × List Byte)

/-- One of the 22 ASCII hexadecimal digits `'0'..'9'`, `'A'..'F'`, `'a'..'f'`. -/
abbrev HexDigit := Fin 22

/-- Its ASCII byte. -/
def HexDigit.ascii (h : HexDigit) : Byte :=
  if h.val < 10 then byte (0x30 + h.val)
  else if h.val < 16 then byte (0x41 + (h.val - 10))
  else byte (0x61 + (h.val - 16))

/-- A number that is the ASCII code of a hexadecimal digit, of either case. -/
def isHexCode (n : Nat) : Bool :=
  (decide (0x30 ≤ n) && decide (n ≤ 0x39)) || (decide (0x41 ≤ n) && decide (n ≤ 0x46)) ||
    (decide (0x61 ≤ n) && decide (n ≤ 0x66))

/-- "Every token is 5 bytes, 0x3C, 0x55, h1, h2, 0x3E, with h1 and h2 ASCII hexadecimal digits"
(`41_character_encoder.md` R82, W2). -/
def isToken : List Byte → Bool
  | [a, b, h1, h2, c] =>
    a == 0x3C && b == 0x55 && isHexCode h1.toNat && isHexCode h2.toNat && c == 0x3E
  | _ => false

/-- A code point that can occur in a token: `<`, `U`, `>` or a hexadecimal digit (R82, W3). -/
def isTokenChar (c : Nat) : Bool := c == 0x3C || c == 0x55 || c == 0x3E || isHexCode c

/-- A code point of Unicode text: "code points above 0x10FFFF and surrogates (0xD800 to 0xDFFF) are not keys"
(`41_character_encoder.md` R83 (g)). -/
def isScalar (c : Nat) : Bool := decide (c < 0xD800) || (decide (0xDFFF < c) && decide (c ≤ 0x10FFFF))

/-- The token `<Uxx>` with given digits. -/
def tokenOf (d : HexDigit × HexDigit) : List Byte := [0x3C, 0x55, d.1.ascii, d.2.ascii, 0x3E]

/-- The token of the euro sign, `"<U00>"` (R82, W4). -/
def euroToken : List Byte := [0x3C, 0x55, 0x30, 0x30, 0x3E]

/-- The eleven keys whose tokens no source gives (R82, W5), in rising order. -/
def openKeys : List Nat :=
  [0xC4, 0xD6, 0xDC, 0xDF, 0xE4, 0xF6, 0xFC, 0x2190, 0x2191, 0x2192, 0x2193]

/-- The conditions W1 to W5 of `41_character_encoder.md` R82. W1, "each key has exactly one token", is
the strict order of the keys. -/
abbrev SubstTable.Wf (t : SubstTable) : Prop :=
  (t.map Prod.fst).Pairwise (· < ·) ∧
  (∀ e ∈ t, isToken e.2 = true) ∧
  (∀ e ∈ t, isTokenChar e.1 = false) ∧
  (0x20AC, euroToken) ∈ t ∧
  (∀ k ∈ openKeys, k ∈ t.map Prod.fst)

/-- No key is a surrogate or lies above 0x10FFFF (`41_character_encoder.md` R83 (g)). It does not follow from
W1 to W5, so it is a condition of its own (DEDUCED, log entry 27). -/
abbrev SubstTable.ScalarKeys (t : SubstTable) : Prop := ∀ e ∈ t, isScalar e.1 = true

/-- Put a further key into a table at its place; a key already there keeps its token. -/
def SubstTable.insert (k : Nat) (tok : List Byte) : SubstTable → SubstTable
  | [] => [(k, tok)]
  | (a, t) :: rest =>
    if k < a then (k, tok) :: (a, t) :: rest
    else if k = a then (a, t) :: rest
    else (a, t) :: SubstTable.insert k tok rest

/-- The digits of the eleven tokens that no source gives. Free: log entry 10. -/
opaque Config.substDigits : Nat → HexDigit × HexDigit

/-- The further keys, if any, with the digits of their tokens. Free: log entry 10. -/
opaque Config.substExtra : List (Nat × (HexDigit × HexDigit))

/-- The twelve keys of R82, W4 and W5. -/
def Config.substBase : SubstTable :=
  let tok := fun k => tokenOf (Config.substDigits k)
  [(0xC4, tok 0xC4), (0xD6, tok 0xD6), (0xDC, tok 0xDC), (0xDF, tok 0xDF), (0xE4, tok 0xE4),
   (0xF6, tok 0xF6), (0xFC, tok 0xFC), (0x20AC, euroToken), (0x2190, tok 0x2190),
   (0x2191, tok 0x2191), (0x2192, tok 0x2192), (0x2193, tok 0x2193)]

/-- The ROM of the block: the twelve keys and the further ones, token characters (W3) and what is no code
point of Unicode text (R83 (g)) left out. Every finite table meeting W1 to W5 and R83 (g) is one of
these. -/
def Config.substTable : SubstTable :=
  Config.substExtra.foldr
    (fun e t =>
      if isTokenChar e.1 || !isScalar e.1 then t else SubstTable.insert e.1 (tokenOf e.2) t)
    Config.substBase

end Sys2Proof
end

