-- ==== Sys2Proof/Machine/State.lean ====
section
/-! DEFINITION. The state of one framer and the reasons a step can stop. Plain data: the registers and
buffers of `10_state.md` R10, the recorded channel history, and the model's inputs. -/

namespace Sys2Proof.Machine

/-- SESS and DEVID (`10_state.md` R11, R12): a device ID exists exactly while the session is open (log
entry 9). -/
inductive Session where
  /-- Closed (0): DEVID has no value. -/
  | closed
  /-- Open (1), with DEVID. -/
  | opened (devid : Nat)
  deriving DecidableEq, Repr

/-- ST, the transport state (`10_state.md` R15). -/
inductive Fsm where
  | idle
  | sending
  | awaitingAck
  | retrying
  | success
  | failed
  deriving DecidableEq, Repr

/-- RES.class (`10_state.md` R19, `60_exceptions.md` R170). -/
inductive ResClass where
  | none
  | ok
  | validation
  | encoding
  | communication
  | refused
  deriving DecidableEq, Repr

/-- RES.cause: the causes of every class (`60_exceptions.md` R171 to R173, R175), and `zero`, the cause 0
of the classes NONE and OK. -/
inductive Cause where
  | zero
  | vDevid
  | vSchedule
  | vPage
  | vPageSchedLen
  | vGPage
  | vGBlock
  | vImgLen
  | vImgSym
  | vWeekday
  | vMonth
  | vDay
  | vHour
  | vMinute
  | vSecond
  | vMaxRetry
  | vPayloadLen
  | eUnmappable
  | cNoAck
  | fIllegalOp
  | fClosed
  | fAlreadyOpen
  deriving DecidableEq, Repr

/-- RES.info: nothing, one number, or a position with the value found there (`60_exceptions.md` R171,
R172). -/
inductive Info where
  | none
  | value (v : Nat)
  | place (index v : Nat)
  deriving DecidableEq, Repr

/-- RES, "a record (class, cause, info)" (`10_state.md` R19). -/
structure Res where
  cls   : ResClass
  cause : Cause
  info  : Info
  deriving DecidableEq, Repr

/-- One channel event (`20_memory.md` R46, `00_scope.md` R8). A read also records the timeout it was given
(log entry 7). -/
inductive ChEvent where
  | write (bytes : List Byte)
  | read (max : Nat) (timeout : Timeout) (answer : List Byte)
  | close
  deriving DecidableEq, Repr

/-- The state of one framer (`10_state.md` R10) with what a model records beside it and its inputs. -/
structure State where
  /-- SESS with DEVID (R11, R12). -/
  sess : Session
  /-- MAXRETRY (R13). -/
  maxRetry : Nat
  /-- TIMEOUT (R14). -/
  timeout : Timeout
  /-- ST (R15). -/
  st : Fsm
  /-- ATT (R16). -/
  att : Nat
  /-- FB (R17). -/
  fb : List Byte
  /-- EXP (R18). -/
  exp : List Byte
  /-- RES (R19). -/
  res : Res
  /-- OUT (R20). -/
  out : List Byte
  /-- TXT (R21). -/
  txt : List Nat
  /-- IMG (R21). -/
  img : List Byte
  /-- PB (R21). -/
  pb : List Byte
  /-- SUBST, a ROM (R22): no operation writes it. -/
  subst : SubstTable
  /-- The operand of the SETID in progress (`45_transport.md` R145; log entry 14). -/
  newId : Option Nat
  /-- The channel event history (`20_memory.md` R46), oldest first. -/
  hist : List ChEvent
  /-- The diagnostic events `Log(r, g)` (`45_transport.md` R137), oldest first. -/
  log : List (List Byte × List Byte)
  /-- Model's own: the channel's answers to the next reads (`20_memory.md` R36; log entry 5). -/
  script : List (List Byte)
  /-- Model's own: how many reads were made, the counter of the free value (log entry 5). -/
  reads : Nat
  /-- Model's own: the records the host presents, oldest first (`46_session_control.md` R163; log entry 4). -/
  pending : List (List Byte)
  /-- Model's own: the reset input (`70_reset_and_hazards.md` R190; log entry 15). -/
  resetReq : Bool
  deriving DecidableEq, Repr

/-- Why the machine stops with a fault: for no reason. An error is a result in RES (`60_exceptions.md` R174),
so nothing raises a fault and the type has no constructor. -/
inductive Fault where
  deriving DecidableEq, Repr

/-- Why a step is refused. -/
inductive Refusal where
  /-- Raised by an arm of `exec` whose instruction has no meaning yet; no arm raises it now. Safe. -/
  | notModelled (mnemonic : String)
  /-- Raised by `step` when the reset input is active during a send: "A model gives such a reset no step
  (it is refused)" (`70_reset_and_hazards.md` R191). Safe. -/
  | resetDuringSend
  deriving DecidableEq, Repr

/-- What the command port offers to a ready block. -/
inductive Fetched where
  /-- No operation, or one that is not wholly present. -/
  | nothing
  /-- A reserved operation code. -/
  | reserved (op : Byte)
  /-- An operation, with the bytes that came after its last operand. -/
  | operation (i : Instr) (extra : List Byte)
  deriving DecidableEq, Repr

/-- The state after reset (`10_state.md` R25, `70_reset_and_hazards.md` R190). TXT, IMG and PB, whose reset
values no rule observes, are empty (DESIGN CHOICE, log entry 13), and so are the model's own fields (log
entries 14, 24). -/
def State.reset : State where
  sess := .closed
  maxRetry := 3
  timeout := Config.timeoutDefault
  st := .idle
  att := 0
  fb := []
  exp := []
  res := ⟨.none, .zero, .none⟩
  out := []
  txt := []
  img := []
  pb := []
  subst := Config.substTable
  newId := none
  hist := []
  log := []
  script := []
  reads := 0
  pending := []
  resetReq := false

end Sys2Proof.Machine
end

