-- ==== Sys2Proof/Machine/Flags.lean ====
section
/-! DEFINITION. RES, the block's only status flag (`10_state.md` R19, R28): the numeric codes and the
values each outcome writes; and the codes of SESS and ST. -/

namespace Sys2Proof.Machine

/-- The code of SESS (`10_state.md` R11). -/
def Session.code : Session → Nat
  | .closed => 0
  | .opened _ => 1

/-- The code of ST (`10_state.md` R15). -/
def Fsm.code : Fsm → Nat
  | .idle => 0
  | .sending => 1
  | .awaitingAck => 2
  | .retrying => 3
  | .success => 4
  | .failed => 5

/-- The code of a result class (`60_exceptions.md` R170). -/
def ResClass.code : ResClass → Nat
  | .none => 0
  | .ok => 1
  | .validation => 2
  | .encoding => 3
  | .communication => 4
  | .refused => 5

/-- The code of a cause inside its class (`60_exceptions.md` R171 to R173, R175). -/
def Cause.code : Cause → Nat
  | .zero => 0
  | .vDevid => 1
  | .vSchedule => 2
  | .vPage => 3
  | .vPageSchedLen => 4
  | .vGPage => 5
  | .vGBlock => 6
  | .vImgLen => 7
  | .vImgSym => 8
  | .vWeekday => 9
  | .vMonth => 10
  | .vDay => 11
  | .vHour => 12
  | .vMinute => 13
  | .vSecond => 14
  | .vMaxRetry => 15
  | .vPayloadLen => 16
  | .eUnmappable => 1
  | .cNoAck => 1
  | .fIllegalOp => 1
  | .fClosed => 2
  | .fAlreadyOpen => 3

/-- (NONE, 0, none), RES while an operation is in progress. -/
def Res.pending : Res := ⟨.none, .zero, .none⟩

/-- (OK, 0, none), RES after an operation that does not send. -/
def Res.done : Res := ⟨.ok, .zero, .none⟩

/-- (OK, 0, ATT), RES on entering Success (`45_transport.md` R144). -/
def Res.acked (att : Nat) : Res := ⟨.ok, .zero, .value att⟩

/-- A ValidationError (`60_exceptions.md` R171). -/
def Res.invalid (cause : Cause) (info : Info) : Res := ⟨.validation, cause, info⟩

/-- The EncodingError of code point `c` at index `k` (`60_exceptions.md` R172). -/
def Res.unmappable (k c : Nat) : Res := ⟨.encoding, .eUnmappable, .place k c⟩

/-- The CommunicationError after `att` attempts (`60_exceptions.md` R173). -/
def Res.noAck (att : Nat) : Res := ⟨.communication, .cNoAck, .value att⟩

/-- Refused: a reserved operation code (`60_exceptions.md` R175). -/
def Res.illegalOp (op : Nat) : Res := ⟨.refused, .fIllegalOp, .value op⟩

/-- Refused: the session is closed (`60_exceptions.md` R175). -/
def Res.closed : Res := ⟨.refused, .fClosed, .none⟩

/-- Refused: the session is already open (`60_exceptions.md` R175). -/
def Res.alreadyOpen : Res := ⟨.refused, .fAlreadyOpen, .none⟩

/-- RES as numbers: class code, cause code, info. -/
def Res.codes (r : Res) : Nat × Nat × Info := (r.cls.code, r.cause.code, r.info)

end Sys2Proof.Machine
end

