-- ==== Sys2Proof/Machine/Operands.lean ====
section
/-! DEFINITION. The operand forms of the host operations: the formatters that write a field as bytes
(`30_encoding.md` R52 to R54) and the validation of each operand against its domain
(`43_command_builder.md` R101, `42_graphics_packer.md` R91, `60_exceptions.md` R171). A check answers the
violation it finds, or none. -/

namespace Sys2Proof.Machine

/-! ### Formatters -/

/-- `H(n)`, one upper-case hexadecimal digit (`30_encoding.md` R52). -/
def hexDigit (n : Nat) : Byte := if n < 10 then byte (0x30 + n) else byte (0x41 + (n - 10))

/-- `hex2(v)`, "two hexadecimal digits, zero-padded, high digit first" (`30_encoding.md` R52). -/
def hex2 (v : Nat) : List Byte := [hexDigit (v / 16), hexDigit (v % 16)]

/-- `dec2(v)`, "two-digit zero-padded decimal" (`30_encoding.md` R53). -/
def dec2 (v : Nat) : List Byte := [byte (0x30 + v / 10), byte (0x30 + v % 10)]

/-- The digit of a graphics block number (`30_encoding.md` R54). -/
def blockDigit (b : Nat) : Byte := byte (0x30 + b)

/-! ### Checks -/

/-- The first violation among checks in rule order (`43_command_builder.md` R109). -/
def firstViolation : List (Option Res) → Option Res
  | [] => none
  | none :: rest => firstViolation rest
  | some r :: _ => some r

/-- A number in its domain `lo..hi`, else the ValidationError given. -/
def within (lo hi v : Nat) (cause : Cause) (info : Info) : Option Res :=
  if lo ≤ v ∧ v ≤ hi then none else some (.invalid cause info)

/-- A device ID, 1..8 (`10_state.md` R27). -/
def checkDevid (d : Nat) : Option Res := within 1 8 d .vDevid (.value d)

/-- The maxRetry operand, 1..255 (`10_state.md` R27, `46_session_control.md` R162). -/
def checkMaxRetry (m : Nat) : Option Res := within 1 255 m .vMaxRetry (.value m)

/-- The six checked fields of PLSC, in the order of `43_command_builder.md` R102. -/
def checkClock (t : ClockTime) : Option Res :=
  firstViolation
    [within 1 7 t.weekday .vWeekday (.value t.weekday),
     within 1 12 t.month .vMonth (.value t.month),
     within 1 31 t.day .vDay (.value t.day),
     within 0 23 t.hour .vHour (.value t.hour),
     within 0 59 t.minute .vMinute (.value t.minute),
     within 0 59 t.second .vSecond (.value t.second)]

/-- The four checked fields of a schedule date-time whose year is field number `pos` of the ten; info is
"(position 0..9 of the field among the ten, value)" (`43_command_builder.md` R103). -/
def checkDateTime (pos : Nat) (t : DateTime) : Option Res :=
  firstViolation
    [within 1 12 t.month .vMonth (.place (pos + 1) t.month),
     within 1 31 t.day .vDay (.place (pos + 2) t.day),
     within 0 23 t.hour .vHour (.place (pos + 3) t.hour),
     within 0 59 t.minute .vMinute (.place (pos + 4) t.minute)]

/-- A schedule letter, `'A'..'E'` (`43_command_builder.md` R101). -/
def checkSchedule (b : Byte) : Option Res := within 0x41 0x45 b.toNat .vSchedule (.value b.toNat)

/-- The page letters from index `k` on, each `'A'..'E'`; info (index, byte) (`43_command_builder.md`
R101, R103). -/
def checkPageLetters (k : Nat) : List Byte → Option Res
  | [] => none
  | b :: rest =>
    match within 0x41 0x45 b.toNat .vPage (.place k b.toNat) with
    | some r => some r
    | none => checkPageLetters (k + 1) rest

/-- A page sequence: its length, then its letters (`43_command_builder.md` R101, R109). -/
def checkPages (pages : List Byte) : Option Res :=
  firstViolation
    [within 0 31 pages.length .vPageSchedLen (.value pages.length),
     checkPageLetters 0 pages]

/-- A graphics page letter, `'A'..'P'` (`43_command_builder.md` R101). -/
def checkGPage (b : Byte) : Option Res := within 0x41 0x50 b.toNat .vGPage (.value b.toNat)

/-- A graphics block number, 1..8 (`43_command_builder.md` R101). -/
def checkGBlock (b : Nat) : Option Res := within 1 8 b .vGBlock (.value b)

/-- The symbols of an image from index `k` on, each 0..3; info (index, symbol) (`42_graphics_packer.md`
R91). -/
def checkSymbols (k : Nat) : List Byte → Option Res
  | [] => none
  | b :: rest =>
    match within 0 3 b.toNat .vImgSym (.place k b.toNat) with
    | some r => some r
    | none => checkSymbols (k + 1) rest

/-- An image: "first the length ..., then the symbols in index order" (`42_graphics_packer.md` R91). -/
def checkImage (img : List Byte) : Option Res :=
  firstViolation
    [within 224 224 img.length .vImgLen (.value img.length),
     checkSymbols 0 img]

/-- A payload no longer than PAYLOAD_MAX (`44_frame_codec.md` R121). -/
def checkPayload (p : List Byte) : Option Res :=
  if Config.payloadTooLong p.length then some (.invalid .vPayloadLen (.value p.length)) else none

/-- All operands of PLT, in the order of `43_command_builder.md` R103. -/
def checkPlt (schedule : Byte) (start stop : DateTime) (pages : List Byte) : Option Res :=
  firstViolation
    [checkSchedule schedule, checkDateTime 0 start, checkDateTime 5 stop, checkPages pages]

/-- All operands of PLG, in the order of `43_command_builder.md` R104. -/
def checkPlg (page : Byte) (block : Nat) (image : List Byte) : Option Res :=
  firstViolation [checkGPage page, checkGBlock block, checkImage image]

/-- The value of a function whose operands passed their checks, or the first violation. -/
def validated {α : Type} (violation : Option Res) (value : α) : Except Res α :=
  match violation with
  | some r => .error r
  | none => .ok value

end Sys2Proof.Machine
end

