-- ==== Sys2Proof/Machine/Ops.lean ====
section
/-! DEFINITION. The named operations every meaning is built from: acceptance, completion and the raising
of an error (`46_session_control.md` R163, R164, `60_exceptions.md` R174), the three channel calls
(`00_scope.md` R8), the operand buffers, the start of a send, and the reset input. -/

namespace Sys2Proof.Machine

/-- What a step or an operation answers. -/
abbrev Result := Host.Outcome State Fault Refusal

/-- DEVID, `none` while the session is closed (`10_state.md` R12). -/
def State.devid (s : State) : Option Nat :=
  match s.sess with
  | .closed => none
  | .opened d => some d

/-- The port is ready "when ST is Idle, Success or Failed" (`46_session_control.md` R163). -/
def State.portReady (s : State) : Bool :=
  match s.st with
  | .idle => true
  | .success => true
  | .failed => true
  | .sending => false
  | .awaitingAck => false
  | .retrying => false

/-! ### Operand buffers -/

/-- TXT, IMG and PB hold nothing once their operation has ended (`10_state.md` R21; log entry 13). -/
def State.releaseBuffers (s : State) : State :=
  { s with txt := [], img := [], pb := [], newId := none }

/-- TXT <- the text operand. -/
def State.loadTxt (text : List Nat) (s : State) : State := { s with txt := text }

/-- IMG <- the image operand. -/
def State.loadImg (image : List Byte) (s : State) : State := { s with img := image }

/-- PB <- a payload. -/
def State.loadPb (payload : List Byte) (s : State) : State := { s with pb := payload }

/-! ### Acceptance and completion -/

/-- The acceptance writes of `46_session_control.md` R164. -/
def State.accept (s : State) : State :=
  { s.releaseBuffers with
    st := .idle, att := 0, res := .pending, out := [], fb := [], exp := [] }

/-- TAKING AN ERROR, `raise X(cause, info)`: RES <- it, OUT <- [], the operation ends and the port is ready
(`60_exceptions.md` R174). There is no handler and no saved state, and nothing returns from it (R178). -/
def State.raise (r : Res) (s : State) : State := { s.releaseBuffers with res := r, out := [] }

/-- Completion without an error: OUT and RES written. -/
def State.complete (out : List Byte) (s : State) : State :=
  { s.releaseBuffers with res := .done, out := out }

/-- A pure operation ends with its bytes or with its error (`60_exceptions.md` R174, R179). -/
def State.deliver (o : Except Res (List Byte)) (s : State) : State :=
  match o with
  | .ok bytes => s.complete bytes
  | .error r => s.raise r

/-- An operation presented to the block: accepted when the port is ready, and otherwise it "simply waits"
(`46_session_control.md` R163; log entry 17). -/
def whenReady (s : State) (body : State → State) : Result :=
  .next (if s.portReady then body s.accept else s)

/-- The session check of the sending operations (`46_session_control.md` R165): refused F_CLOSED, or go on
with DEVID. -/
def State.withDevid (s : State) (body : Nat → State → State) : State :=
  match s.sess with
  | .closed => s.raise .closed
  | .opened d => body d s

/-! ### The channel -/

/-- `ChWrite(b)`: one call with the whole sequence; it cannot fail (`20_memory.md` R33). -/
def State.chWrite (b : List Byte) (s : State) : State := { s with hist := s.hist ++ [.write b] }

/-- What `ChRead(m, TIMEOUT)` returns: the script's next answer, or a free value, cut to `m` bytes
(`20_memory.md` R34, R36; log entries 5, 6). The free value does not tell instances apart: DESIGN CHOICE, log
entry 28. -/
def State.chAnswer (m : Nat) (s : State) : List Byte :=
  match s.script with
  | r :: _ => r.take m
  | [] => (Config.channelAnswer s.reads m s.timeout).take m

/-- The state after `ChRead(m, TIMEOUT)`: the answer is consumed and recorded (`20_memory.md` R34, R46). -/
def State.chRead (m : Nat) (s : State) : State :=
  { s with
    hist := s.hist ++ [.read m s.timeout (s.chAnswer m)]
    script := s.script.tail
    reads := s.reads + 1 }

/-- `ChClose()` (`20_memory.md` R35). -/
def State.chClose (s : State) : State := { s with hist := s.hist ++ [.close] }

/-- `Log(r, g)` (`45_transport.md` R137). -/
def State.logEvent (r g : List Byte) (s : State) : State := { s with log := s.log ++ [(r, g)] }

/-! ### Sending -/

/-- The token `"ACK"` (`30_encoding.md` R57). -/
def ackToken : List Byte := [0x41, 0x43, 0x4B]

/-- The most bytes asked of a drain (`00_scope.md` R5, `45_transport.md` R136). -/
def drainMax : Nat := 1000

/-- The start of a send: FB <- F, EXP <- X, ATT <- 0, ST <- Sending (`45_transport.md` R131, R132). -/
def State.startSend (frame token : List Byte) (s : State) : State :=
  { s with fb := frame, exp := token, att := 0, st := .sending }

/-- The operand of a SETID, held while its send runs (`45_transport.md` R145; log entry 14). -/
def State.holdNewId (n : Nat) (s : State) : State := { s with newId := some n }

/-! ### Reset and reserved codes -/

/-- The registers at their reset values, the channel and the inputs untouched (`10_state.md` R25,
`70_reset_and_hazards.md` R190). The reset line is taken as a pulse: it falls (log entry 15). -/
def State.resetRegisters (s : State) : State :=
  { State.reset with
    subst := s.subst
    hist := s.hist
    log := s.log
    script := s.script
    reads := s.reads
    pending := s.pending }

/-- The reset input: specified "only when the port is ready"; during a send it has no step
(`70_reset_and_hazards.md` R190, R191). -/
def resetInput (s : State) : Result :=
  if s.portReady then .next s.resetRegisters else .refused .resetDuringSend

/-- A reserved operation code: accepted and refused at once (`30_encoding.md` R71). -/
def execIllegal (op : Byte) (s : State) : Result :=
  whenReady s fun s => s.raise (.illegalOp op.toNat)

end Sys2Proof.Machine
end

