-- ==== Sys2Proof/Machine/Session.lean ====
section
/-! DEFINITION. Session control, operations OPEN, CLOSE, SETCFG (`46_session_control.md`). -/

namespace Sys2Proof.Machine

/-- OPEN d (`46_session_control.md` R160): the session is checked before the operand. -/
def execOpen (d : Nat) (s : State) : Result :=
  whenReady s fun s =>
    match s.sess with
    | .opened _ => s.raise .alreadyOpen
    | .closed =>
      match checkDevid d with
      | some r => s.raise r
      | none => ({ s with sess := .opened d } : State).complete []

/-- CLOSE (`46_session_control.md` R161): one `Close` event. -/
def execClose (s : State) : Result :=
  whenReady s fun s =>
    match s.sess with
    | .closed => s.raise .closed
    | .opened _ => ({ s.chClose with sess := .closed } : State).complete []

/-- SETCFG maxRetry, timeout (`46_session_control.md` R162), accepted in any session state. -/
def execSetcfg (maxRetry : Nat) (timeout : Timeout) (s : State) : Result :=
  whenReady s fun s =>
    match checkMaxRetry maxRetry with
    | some r => s.raise r
    | none => ({ s with maxRetry := maxRetry, timeout := timeout } : State).complete []

end Sys2Proof.Machine
end

