-- ==== Sys2Proof/Machine/Text.lean ====
section
/-! DEFINITION. CharacterEncoder, operation ESC (`41_character_encoder.md`). -/

namespace Sys2Proof.Machine

/-- The token of a code point, if it is a key (`41_character_encoder.md` R82, W1). -/
def lookupToken (t : SubstTable) (c : Nat) : Option (List Byte) :=
  (t.find? fun e => e.1 == c).map Prod.snd

/-- What one code point becomes: its token if it is a key, else its own byte up to 0x7F
(`41_character_encoder.md` R80). -/
def escPoint (t : SubstTable) (c : Nat) : Option (List Byte) :=
  match lookupToken t c with
  | some tok => some tok
  | none => if c ≤ 0x7F then some [byte c] else none

/-- `esc` of the code points from index `k` on: the first unmappable one is reported with its index
(`41_character_encoder.md` R80, R81, R83 (i)). -/
def escFrom (t : SubstTable) (k : Nat) : List Nat → Except Res (List Byte)
  | [] => .ok []
  | c :: cs =>
    match escPoint t c with
    | none => .error (.unmappable k c)
    | some bytes =>
      match escFrom t (k + 1) cs with
      | .ok rest => .ok (bytes ++ rest)
      | .error r => .error r

/-- `esc(text)` (`41_character_encoder.md` R80). -/
def esc (t : SubstTable) (text : List Nat) : Except Res (List Byte) := escFrom t 0 text

/-- ESC text (`41_character_encoder.md` R81). -/
def execEsc (text : List Nat) (s : State) : Result :=
  whenReady s fun s =>
    let s := s.loadTxt text
    s.deliver (esc s.subst s.txt)

end Sys2Proof.Machine
end

