-- ==== Sys2Proof/Machine/Graphics.lean ====
section
/-! DEFINITION. GraphicsPacker, operation PACK (`42_graphics_packer.md`). -/

namespace Sys2Proof.Machine

/-- The four symbols of a pixel (`42_graphics_packer.md` R90). -/
inductive Pixel where
  | black
  | green
  | red
  | orange
  deriving DecidableEq, Repr

/-- The symbol an 8-bit number of the host port names; 4 to 255 name none (`42_graphics_packer.md` R90). -/
def pixelOf (b : Byte) : Option Pixel :=
  match b.toNat with
  | 0 => some .black
  | 1 => some .green
  | 2 => some .red
  | 3 => some .orange
  | _ => none

/-- "bit1 set if pixel is Green or Orange" (`42_graphics_packer.md` R90). -/
def Pixel.bit1 : Pixel → Nat
  | .black => 0
  | .green => 1
  | .red => 0
  | .orange => 1

/-- "bit2 set if Red or Orange" (`42_graphics_packer.md` R90). -/
def Pixel.bit2 : Pixel → Nat
  | .black => 0
  | .green => 0
  | .red => 1
  | .orange => 1

/-- The 2-bit code, "bit1 of weight 1 and bit2 of weight 2" (`42_graphics_packer.md` R90). -/
def Pixel.code (p : Pixel) : Nat := p.bit1 + 2 * p.bit2

/-- The code of a symbol of the image. A validated image holds no other symbol, so the last case, Black,
is never taken. -/
def symbolCode (b : Byte) : Nat :=
  match pixelOf b with
  | some p => p.code
  | none => 0

/-- The code of the pixel in row `py`, column `col`; "every read of" the padding row 7 "yields Black"
(`20_memory.md` R31, `42_graphics_packer.md` R92). -/
def pixelAt (img : List Byte) (py col : Nat) : Nat :=
  if py = 7 then 0 else symbolCode ((img[32 * py + col]?).getD 0)

/-- The column group of packed byte `i` (`42_graphics_packer.md` R92). -/
def packPx (i : Nat) : Nat := i % 2 + i / 16 * 2

/-- The row of packed byte `i` (`42_graphics_packer.md` R92). -/
def packPy (i : Nat) : Nat := i / 2 % 8

/-- The value of packed byte `i`: `v <- v*4 + c` over the four pixels (`42_graphics_packer.md` R92). -/
def packValue (img : List Byte) (i : Nat) : Nat :=
  [0, 1, 2, 3].foldl (fun v j => v * 4 + pixelAt img (packPy i) (4 * packPx i + j)) 0

/-- `pack(img)`, the 64 bytes in index order (`42_graphics_packer.md` R92). -/
def pack (img : List Byte) : List Byte := (List.range 64).map fun i => byte (packValue img i)

/-- PACK image (`42_graphics_packer.md` R93). -/
def execPack (image : List Byte) (s : State) : Result :=
  whenReady s fun s =>
    let s := s.loadImg image
    s.deliver (validated (checkImage s.img) (pack s.img))

end Sys2Proof.Machine
end

