-- ==== Sys2Proof/Machine/Builder.lean ====
section
/-! DEFINITION. CommandBuilder, operations PLSC, PLT, PLG (`43_command_builder.md`). -/

namespace Sys2Proof.Machine

/-- The payload of a set clock command (`43_command_builder.md` R102, `30_encoding.md` R59). -/
def clockPayload (t : ClockTime) : List Byte :=
  [0x3C, 0x53, 0x43, 0x3E] ++ dec2 (t.year % 100) ++ dec2 t.weekday ++ dec2 t.month ++
    dec2 t.day ++ dec2 t.hour ++ dec2 t.minute ++ dec2 t.second

/-- The five two-digit fields of a schedule date-time (`30_encoding.md` R60). -/
def dateTimeDigits (t : DateTime) : List Byte :=
  dec2 (t.year % 100) ++ dec2 t.month ++ dec2 t.day ++ dec2 t.hour ++ dec2 t.minute

/-- The payload of a set schedule command (`43_command_builder.md` R103, `30_encoding.md` R60). -/
def schedulePayload (schedule : Byte) (start stop : DateTime) (pages : List Byte) : List Byte :=
  [0x3C, 0x54, schedule, 0x3E] ++ dateTimeDigits start ++ dateTimeDigits stop ++ pages

/-- The payload of a graphics block command (`43_command_builder.md` R104, `30_encoding.md` R61). -/
def graphicsPayload (page : Byte) (block : Nat) (image : List Byte) : List Byte :=
  [0x3C, 0x47, page, blockDigit block, 0x3E] ++ pack image

/-- Set clock: all operands validated before a byte is produced (`43_command_builder.md` R100). -/
def buildClock (t : ClockTime) : Except Res (List Byte) :=
  validated (checkClock t) (clockPayload t)

/-- Set schedule, validated. -/
def buildSchedule (schedule : Byte) (start stop : DateTime) (pages : List Byte) :
    Except Res (List Byte) :=
  validated (checkPlt schedule start stop pages) (schedulePayload schedule start stop pages)

/-- Graphics block, validated. -/
def buildGraphics (page : Byte) (block : Nat) (image : List Byte) : Except Res (List Byte) :=
  validated (checkPlg page block image) (graphicsPayload page block image)

/-- PLSC (`43_command_builder.md` R102). -/
def execPlsc (time : ClockTime) (s : State) : Result :=
  whenReady s fun s => s.deliver (buildClock time)

/-- PLT (`43_command_builder.md` R103). -/
def execPlt (schedule : Byte) (start stop : DateTime) (pages : List Byte) (s : State) : Result :=
  whenReady s fun s => s.deliver (buildSchedule schedule start stop pages)

/-- PLG (`43_command_builder.md` R104). -/
def execPlg (page : Byte) (block : Nat) (image : List Byte) (s : State) : Result :=
  whenReady s fun s =>
    let s := s.loadImg image
    s.deliver (buildGraphics page block s.img)

end Sys2Proof.Machine
end

