-- ==== Sys2Proof/Machine/Frame.lean ====
section
/-! DEFINITION. FrameCodec, operations CSUM, WRAP, WRAPID (`44_frame_codec.md`), and the positional
decoder of its round-trip property. -/

namespace Sys2Proof.Machine

/-- `csum(p)`, "the exclusive-or of all its bytes, starting from 0" (`44_frame_codec.md` R120). -/
def checksum (p : List Byte) : Byte := p.foldl (fun c b => c ^^^ b) 0

/-- `frame(d, p)` (`44_frame_codec.md` R122, `30_encoding.md` R55). -/
def frame (d : Nat) (p : List Byte) : List Byte :=
  [0x3C, 0x49, 0x44] ++ hex2 d ++ [0x3E] ++ p ++ hex2 (checksum p).toNat ++ [0x3C, 0x45, 0x3E]

/-- `idframe(n)` (`44_frame_codec.md` R124, `30_encoding.md` R56). -/
def idFrame (n : Nat) : List Byte :=
  [0x3C, 0x49, 0x44, 0x3E] ++ [0x3C] ++ hex2 n ++ [0x3E] ++ [0x3C, 0x45, 0x3E]

/-- The value of a hexadecimal digit byte as `hex2` writes it. -/
def hexValue (b : Byte) : Option Nat :=
  let n := b.toNat
  if 0x30 ≤ n ∧ n ≤ 0x39 then some (n - 0x30)
  else if 0x41 ≤ n ∧ n ≤ 0x46 then some (n - 0x41 + 10)
  else none

/-- The value of two hexadecimal digit bytes. -/
def hexPair : List Byte → Option Nat
  | [h, l] =>
    match hexValue h, hexValue l with
    | some a, some b => some (16 * a + b)
    | _, _ => none
  | _ => none

/-- `unframe(f)`, the positional decoder of `44_frame_codec.md` R127 (a test aid, not part of the block):
(device ID, payload, checksum). -/
def unframe (f : List Byte) : Option (Nat × List Byte × Nat) :=
  let n := f.length - 11
  if 11 ≤ f.length ∧ f.take 3 = [0x3C, 0x49, 0x44] ∧ f[5]? = some 0x3E ∧
      f.drop (8 + n) = [0x3C, 0x45, 0x3E] then
    match hexPair ((f.drop 3).take 2), hexPair ((f.drop (6 + n)).take 2) with
    | some d, some c => some (d, (f.drop 6).take n, c)
    | _, _ => none
  else none

/-- CSUM payload (`44_frame_codec.md` R121). -/
def execCsum (payload : List Byte) (s : State) : Result :=
  whenReady s fun s =>
    let s := s.loadPb payload
    s.deliver (validated (checkPayload s.pb) [checksum s.pb])

/-- WRAP d, payload (`44_frame_codec.md` R123): the device ID is checked first. -/
def execWrap (d : Nat) (payload : List Byte) (s : State) : Result :=
  whenReady s fun s =>
    let s := s.loadPb payload
    s.deliver (validated (firstViolation [checkDevid d, checkPayload s.pb]) (frame d s.pb))

/-- WRAPID n (`44_frame_codec.md` R125). -/
def execWrapid (n : Nat) (s : State) : Result :=
  whenReady s fun s => s.deliver (validated (checkDevid n) (idFrame n))

end Sys2Proof.Machine
end

