-- ==== Sys2Proof/Machine/Transport.lean ====
section
/-! DEFINITION. Transport (`45_transport.md`): the operations SEND, SENDSC, SENDT, SENDG, SETID, which
start a send, and the state machine whose transitions the following steps take. -/

namespace Sys2Proof.Machine

/-! ### Starting a send -/

/-- A payload, or the error of its construction, sent in a normal frame under DEVID `d` with the token
`"ACK"` (`45_transport.md` R140, R141). -/
def State.sendPayload (d : Nat) (o : Except Res (List Byte)) (s : State) : State :=
  match o with
  | .error r => s.raise r
  | .ok p => (s.loadPb p).startSend (frame d p) ackToken

/-- SEND payload (`45_transport.md` R140). -/
def execSend (payload : List Byte) (s : State) : Result :=
  whenReady s fun s => s.withDevid fun d s =>
    s.sendPayload d (validated (checkPayload payload) payload)

/-- SENDSC (`45_transport.md` R141). -/
def execSendsc (time : ClockTime) (s : State) : Result :=
  whenReady s fun s => s.withDevid fun d s => s.sendPayload d (buildClock time)

/-- SENDT (`45_transport.md` R142). -/
def execSendt (schedule : Byte) (start stop : DateTime) (pages : List Byte) (s : State) : Result :=
  whenReady s fun s => s.withDevid fun d s =>
    s.sendPayload d (buildSchedule schedule start stop pages)

/-- SENDG (`45_transport.md` R143). -/
def execSendg (page : Byte) (block : Nat) (image : List Byte) (s : State) : Result :=
  whenReady s fun s => s.withDevid fun d s =>
    let s := s.loadImg image
    s.sendPayload d (buildGraphics page block s.img)

/-- SETID n (`45_transport.md` R145): the ID-set frame, and the echo of the new ID as the token. -/
def execSetid (n : Nat) (s : State) : Result :=
  whenReady s fun s => s.withDevid fun _ s =>
    match checkDevid n with
    | some r => s.raise r
    | none => (s.holdNewId n).startSend (idFrame n) (hex2 n)

/-! ### The transitions (`45_transport.md` R131) -/

/-- DEVID <- n in an open session; SESS is not written (`45_transport.md` R145). -/
def Session.setDevid (n : Nat) : Session → Session
  | .closed => .closed
  | .opened _ => .opened n

/-- DEVID as the end of a successful send leaves it: the new ID after a SETID (`45_transport.md` R145). -/
def State.confirmedSess (s : State) : Session :=
  match s.newId with
  | some n => s.sess.setDevid n
  | none => s.sess

/-- Entering Success: RES <- (OK, 0, ATT), and DEVID for a SETID (`45_transport.md` R144, R145). -/
def State.succeed (s : State) : State :=
  { s.releaseBuffers with st := .success, res := .acked s.att, sess := s.confirmedSess }

/-- Entering Failed: RES <- (COMMUNICATION, C_NO_ACK, ATT); FB stays (`45_transport.md` R138). -/
def State.fail (s : State) : State :=
  { s.releaseBuffers with st := .failed, res := .noAck s.att }

/-- Sending: ATT <- ATT + 1, then the whole of FB in one write (`45_transport.md` R134). -/
def sendingStep (s : State) : State :=
  { ({ s with att := s.att + 1 } : State).chWrite s.fb with st := .awaitingAck }

/-- The drain after a mismatch with answer `r`: one read of up to 1000 bytes, logged and otherwise
discarded (`45_transport.md` R136, R137). -/
def drainStep (r : List Byte) (s : State) : State :=
  { (s.chRead drainMax).logEvent r (s.chAnswer drainMax) with st := .retrying }

/-- AwaitingAck: one read of |EXP| bytes; Success on an exact match, else the drain
(`45_transport.md` R135). -/
def awaitStep (s : State) : State :=
  if s.chAnswer s.exp.length = s.exp then (s.chRead s.exp.length).succeed
  else drainStep (s.chAnswer s.exp.length) (s.chRead s.exp.length)

/-- Retrying: again while ATT < MAXRETRY, else Failed (`45_transport.md` R138). -/
def retryStep (s : State) : State :=
  if s.att < s.maxRetry then { s with st := .sending } else s.fail

/-- One transition of the machine (`45_transport.md` R131). In Idle, Success and Failed it takes none of
its own. -/
def transportStep (s : State) : State :=
  match s.st with
  | .sending => sendingStep s
  | .awaitingAck => awaitStep s
  | .retrying => retryStep s
  | .idle => s
  | .success => s
  | .failed => s

end Sys2Proof.Machine
end

