-- ==== Sys2Proof/Machine/Dispatch.lean ====
section
/-! DEFINITION. The meaning of each host operation, one arm per constructor. -/

namespace Sys2Proof.Machine

def exec (i : Instr) (s : State) : Host.Outcome State Fault Refusal :=
  match i with
  | .openSess d => Sys2Proof.Machine.execOpen d s
  | .close => Sys2Proof.Machine.execClose s
  | .setcfg maxRetry timeout => Sys2Proof.Machine.execSetcfg maxRetry timeout s
  | .esc text => Sys2Proof.Machine.execEsc text s
  | .pack image => Sys2Proof.Machine.execPack image s
  | .plsc time => Sys2Proof.Machine.execPlsc time s
  | .plt schedule start stop pages => Sys2Proof.Machine.execPlt schedule start stop pages s
  | .plg page block image => Sys2Proof.Machine.execPlg page block image s
  | .csum payload => Sys2Proof.Machine.execCsum payload s
  | .wrap d payload => Sys2Proof.Machine.execWrap d payload s
  | .wrapid n => Sys2Proof.Machine.execWrapid n s
  | .send payload => Sys2Proof.Machine.execSend payload s
  | .sendsc time => Sys2Proof.Machine.execSendsc time s
  | .sendt schedule start stop pages => Sys2Proof.Machine.execSendt schedule start stop pages s
  | .sendg page block image => Sys2Proof.Machine.execSendg page block image s
  | .setid n => Sys2Proof.Machine.execSetid n s

end Sys2Proof.Machine
end

