-- ==== Sys2Proof/WellFormed.lean ====
section
/-! DEFINITION. Which operations fit the operand widths of `10_state.md` R27. Legal ranges inside a
width (a device ID of 9, a month of 13) are no matter of form: the operation itself rejects those. -/

namespace Sys2Proof

/-- An operand of 8 bits (`10_state.md` R27). -/
def fits8 (n : Nat) : Bool := decide (n < 256)

/-- The year operand: "16 bits, 0..65535" (`10_state.md` R27). -/
def fits16 (n : Nat) : Bool := decide (n < 65536)

/-- A code point: "21 bits, 0..0x1FFFFF" (`10_state.md` R27). -/
def fits21 (n : Nat) : Bool := decide (n < 2097152)

/-- What the three bytes of a text element in the record layout can hold (DESIGN CHOICE, log entry 1). -/
def fits24 (n : Nat) : Bool := decide (n < 16777216)

/-- The code of a timeout in the record layout of `Decode.lean` (32 bits; DESIGN CHOICE, log entry 12). -/
def fits32 (n : Nat) : Bool := decide (n < 4294967296)

def ClockTime.wellFormed (t : ClockTime) : Bool :=
  fits16 t.year && fits8 t.weekday && fits8 t.month && fits8 t.day && fits8 t.hour &&
    fits8 t.minute && fits8 t.second

def DateTime.wellFormed (t : DateTime) : Bool :=
  fits16 t.year && fits8 t.month && fits8 t.day && fits8 t.hour && fits8 t.minute

/-- Every numeric operand fits its width. Operands that are bytes already do. -/
def Instr.wellFormed : Instr → Bool
  | .openSess d => fits8 d
  | .close => true
  | .setcfg maxRetry timeout => fits8 maxRetry && fits32 timeout.code
  | .esc text => text.all fits21
  | .pack _ => true
  | .plsc time => time.wellFormed
  | .plt _ start stop _ => start.wellFormed && stop.wellFormed
  | .plg _ block _ => fits8 block
  | .csum _ => true
  | .wrap d _ => fits8 d
  | .wrapid n => fits8 n
  | .send _ => true
  | .sendsc time => time.wellFormed
  | .sendt _ start stop _ => start.wellFormed && stop.wellFormed
  | .sendg _ block _ => fits8 block
  | .setid n => fits8 n

/-- Every operand fits the bytes its record gives it. Only a text element can be wider there than its width of
21 bits: ESC answers it with an EncodingError (`10_state.md` R27), so it is presented and executed. -/
def Instr.presentable (i : Instr) : Bool :=
  match i with
  | .esc text => text.all fits24
  | .openSess _ | .close | .setcfg _ _ | .pack _ | .plsc _ | .plt _ _ _ _ | .plg _ _ _ | .csum _
  | .wrap _ _ | .wrapid _ | .send _ | .sendsc _ | .sendt _ _ _ _ | .sendg _ _ _ | .setid _ =>
    i.wellFormed

end Sys2Proof
end

