-- ==== Sys2Proof/Decode.lean ====
section
/-! DEFINITION. The command port's record: how a host operation is laid out as bytes, read and written.

The op codes and the operands, their order and widths are the spec's (`30_encoding.md` R70, R72,
`10_state.md` R27). "How the sequence crosses the port ... is not modelled" (R72), so the byte layout is
the model's (DESIGN CHOICE, log entries 1 and 2): the op byte, then the scalar operands in rule order,
each in whole bytes with the high byte first, then the elements of the sequence operand, which ends
where the record ends. -/

namespace Sys2Proof

/-- The 8-bit code of each operation (`30_encoding.md` R70). -/
def OpCode.code : OpCode → Byte
  | .openSess => 0x01
  | .close => 0x02
  | .setcfg => 0x03
  | .esc => 0x10
  | .pack => 0x20
  | .plsc => 0x30
  | .plt => 0x31
  | .plg => 0x32
  | .csum => 0x40
  | .wrap => 0x41
  | .wrapid => 0x42
  | .send => 0x50
  | .sendsc => 0x51
  | .sendt => 0x52
  | .sendg => 0x53
  | .setid => 0x54

/-- The rows of the operation table in order (`30_encoding.md` R70). -/
def opRows : List OpCode :=
  [.openSess, .close, .setcfg, .esc, .pack, .plsc, .plt, .plg, .csum, .wrap, .wrapid, .send,
   .sendsc, .sendt, .sendg, .setid]

/-- The row an op byte selects, "by the 8-bit op alone" (`30_encoding.md` R72); none for a reserved code
(R71). -/
def rowOf (op : Byte) : Option OpCode := opRows.find? fun o => o.code == op

/-- An operation without a sequence operand ends its record; bytes after it are `extra` (log entry 3). -/
def exactly (i : Instr) (extra : List Byte) : Except DecodeError Instr :=
  match extra with
  | [] => .ok i
  | _ :: _ => .error (.trailing i extra)

/-- A text operand, three bytes a code point. A value beyond 21 bits is handed to ESC like any other
(`10_state.md` R27: "EncodingError"). -/
def decodeText : List Byte → Except DecodeError (List Nat)
  | [] => .ok []
  | b2 :: b1 :: b0 :: rest =>
    match decodeText rest with
    | .ok cs => .ok (nat3 b2 b1 b0 :: cs)
    | .error e => .error e
  | _ => .error .truncated

/-- The clock operands, eight bytes. -/
def decodeClock (rest : List Byte) (mk : ClockTime → Instr) : Except DecodeError Instr :=
  match rest with
  | y1 :: y0 :: w :: mo :: d :: h :: mi :: s :: extra =>
    exactly (mk ⟨nat2 y1 y0, w.toNat, mo.toNat, d.toNat, h.toNat, mi.toNat, s.toNat⟩) extra
  | _ => .error .truncated

/-- The schedule operands, thirteen bytes and the pages. -/
def decodeSchedule (rest : List Byte) (mk : Byte → DateTime → DateTime → List Byte → Instr) :
    Except DecodeError Instr :=
  match rest with
  | sc :: sy1 :: sy0 :: smo :: sd :: sh :: smi :: ey1 :: ey0 :: emo :: ed :: eh :: emi :: pages =>
    .ok (mk sc ⟨nat2 sy1 sy0, smo.toNat, sd.toNat, sh.toNat, smi.toNat⟩
      ⟨nat2 ey1 ey0, emo.toNat, ed.toNat, eh.toNat, emi.toNat⟩ pages)
  | _ => .error .truncated

/-- The graphics block operands, two bytes and the image. -/
def decodeGraphics (rest : List Byte) (mk : Byte → Nat → List Byte → Instr) :
    Except DecodeError Instr :=
  match rest with
  | page :: block :: image => .ok (mk page block.toNat image)
  | _ => .error .truncated

/-- A single 8-bit operand. -/
def decodeByte (rest : List Byte) (mk : Nat → Instr) : Except DecodeError Instr :=
  match rest with
  | d :: extra => exactly (mk d.toNat) extra
  | [] => .error .truncated

/-- The operation a row's operand bytes give (`30_encoding.md` R70, R72). -/
def decodeOperands (row : OpCode) (rest : List Byte) : Except DecodeError Instr :=
  match row with
  | .openSess => decodeByte rest .openSess
  | .close => exactly .close rest
  | .setcfg =>
    match rest with
    | m :: t3 :: t2 :: t1 :: t0 :: extra => exactly (.setcfg m.toNat ⟨nat4 t3 t2 t1 t0⟩) extra
    | _ => .error .truncated
  | .esc =>
    match decodeText rest with
    | .ok text => .ok (.esc text)
    | .error e => .error e
  | .pack => .ok (.pack rest)
  | .plsc => decodeClock rest .plsc
  | .plt => decodeSchedule rest .plt
  | .plg => decodeGraphics rest .plg
  | .csum => .ok (.csum rest)
  | .wrap =>
    match rest with
    | d :: payload => .ok (.wrap d.toNat payload)
    | [] => .error .truncated
  | .wrapid => decodeByte rest .wrapid
  | .send => .ok (.send rest)
  | .sendsc => decodeClock rest .sendsc
  | .sendt => decodeSchedule rest .sendt
  | .sendg => decodeGraphics rest .sendg
  | .setid => decodeByte rest .setid

/-- The operation a whole record stands for: total on any bytes, rejecting by name. -/
def decode : List Byte → Except DecodeError Instr
  | [] => .error .noOperation
  | op :: rest =>
    match rowOf op with
    | some row => decodeOperands row rest
    | none => .error (.reservedCode op)

/-- A number in two bytes, high byte first. -/
def put2 (n : Nat) : List Byte := [byte (n / 256), byte n]

/-- A number in three bytes, high byte first. -/
def put3 (n : Nat) : List Byte := [byte (n / 65536), byte (n / 256), byte n]

/-- A number in four bytes, high byte first. -/
def put4 (n : Nat) : List Byte := [byte (n / 16777216), byte (n / 65536), byte (n / 256), byte n]

def encodeClock (t : ClockTime) : List Byte :=
  put2 t.year ++ [byte t.weekday, byte t.month, byte t.day, byte t.hour, byte t.minute,
    byte t.second]

def encodeDateTime (t : DateTime) : List Byte :=
  put2 t.year ++ [byte t.month, byte t.day, byte t.hour, byte t.minute]

/-- The row of an operation. -/
def Instr.row : Instr → OpCode
  | .openSess _ => .openSess
  | .close => .close
  | .setcfg _ _ => .setcfg
  | .esc _ => .esc
  | .pack _ => .pack
  | .plsc _ => .plsc
  | .plt _ _ _ _ => .plt
  | .plg _ _ _ => .plg
  | .csum _ => .csum
  | .wrap _ _ => .wrap
  | .wrapid _ => .wrapid
  | .send _ => .send
  | .sendsc _ => .sendsc
  | .sendt _ _ _ _ => .sendt
  | .sendg _ _ _ => .sendg
  | .setid _ => .setid

/-- The operand bytes of an operation: scalar operands in rule order, then the sequence operand. -/
def encodeOperands : Instr → List Byte
  | .openSess d => [byte d]
  | .close => []
  | .setcfg maxRetry timeout => byte maxRetry :: put4 timeout.code
  | .esc text => text.flatMap put3
  | .pack image => image
  | .plsc time => encodeClock time
  | .plt schedule start stop pages =>
    schedule :: (encodeDateTime start ++ encodeDateTime stop ++ pages)
  | .plg page block image => page :: byte block :: image
  | .csum payload => payload
  | .wrap d payload => byte d :: payload
  | .wrapid n => [byte n]
  | .send payload => payload
  | .sendsc time => encodeClock time
  | .sendt schedule start stop pages =>
    schedule :: (encodeDateTime start ++ encodeDateTime stop ++ pages)
  | .sendg page block image => page :: byte block :: image
  | .setid n => [byte n]

/-- The record of an operation: its op code, then its operands. -/
def encode (i : Instr) : List Byte := i.row.code :: encodeOperands i

/-- How many operand bytes come before any sequence operand. -/
def scalarBytes : OpCode → Nat
  | .openSess => 1
  | .close => 0
  | .setcfg => 5
  | .esc => 0
  | .pack => 0
  | .plsc => 8
  | .plt => 13
  | .plg => 2
  | .csum => 0
  | .wrap => 1
  | .wrapid => 1
  | .send => 0
  | .sendsc => 8
  | .sendt => 13
  | .sendg => 2
  | .setid => 1

/-- The fewest bytes a record with this op code has: the code and its scalar operands. -/
def shortestRecord (op : Byte) : Nat :=
  match rowOf op with
  | some row => 1 + scalarBytes row
  | none => 1

/-- The first `n` bytes of the number `w`, low byte first (the table's bit numbering). -/
def bytesOf : Nat → Nat → List Byte
  | 0, _ => []
  | n + 1, w => byte (w % 256) :: bytesOf n (w / 256)

/-- The record whose first `nbits` bits are `w` and whose other bits are 0: the given bytes, then scalar
operands of 0, then an empty sequence operand. -/
def recordOf (nbits w : Nat) : List Byte :=
  bytesOf (nbits / 8) w ++ List.replicate (shortestRecord (byte w) - nbits / 8) 0

/-- What the decoder reads from an operation-table word, the bits above `nbits` being 0. -/
def decodeTableWord (nbits w : Nat) : Option Instr :=
  match decode (recordOf nbits w) with
  | .ok i => some i
  | .error _ => none

end Sys2Proof
end

