-- ==== Sys2Proof/Machine/Port.lean ====
section
/-! DEFINITION. The command port (`46_session_control.md` R163, `30_encoding.md` R72): what it offers to a
ready block, and how a record is placed there. -/

namespace Sys2Proof.Machine

/-- Read the record at the port. An operation "begins to have effects only when the whole sequence is
present" (`30_encoding.md` R72), so a record that lacks operand bytes offers nothing yet; an operation with
further bytes after its last operand is wholly present (DESIGN CHOICE, log entry 3). -/
def fetch (s : State) : Fetched :=
  match s.pending with
  | [] => .nothing
  | record :: _ =>
    match decode record with
    | .ok i => .operation i []
    | .error .noOperation => .nothing
    | .error (.reservedCode op) => .reserved op
    | .error .truncated => .nothing
    | .error (.trailing i extra) => .operation i extra

/-- What the port presents in place of the bytes `extra` after an operation: nothing where there are none, else
a free value (DESIGN CHOICE, log entry 3). -/
def leftover (extra : List Byte) : List (List Byte) :=
  match extra with
  | [] => []
  | _ :: _ => Config.extraBytes extra

/-- The record at the port is taken, `extra` being the bytes after its operation. -/
def State.takeRecord (extra : List Byte) (s : State) : State :=
  { s with pending := leftover extra ++ s.pending.tail }

/-- The block made ready, with a record presented to it before all others. -/
def State.present (record : List Byte) (s : State) : State :=
  { s with
    pending := record :: s.pending
    resetReq := false
    st := if s.portReady then s.st else .idle }

/-! ### What the outside does to the block

The host, the environment and the channel act between steps; a run of the framer with its surroundings
alternates these with `step`. -/

/-- The host presents a record: "at any time" (`46_session_control.md` R163; log entry 4). -/
def State.offer (record : List Byte) (s : State) : State :=
  { s with pending := s.pending ++ [record] }

/-- The reset input becomes active (`70_reset_and_hazards.md` R190; log entry 15). -/
def State.assertReset (s : State) : State := { s with resetReq := true }

/-- What the channel will answer to the next reads is settled: anything (`20_memory.md` R36; log entry 5). -/
def State.answerWith (answers : List (List Byte)) (s : State) : State := { s with script := answers }

end Sys2Proof.Machine
end

