-- ==== Sys2Proof/Machine/Step.lean ====
section
/-! DEFINITION. One step of the framer: "a step is one operation or one FSM transition" (decision D1). -/

namespace Sys2Proof.Machine

/-- The reset input comes first; a busy block takes one transition of its send while any presented
operation waits; a ready block accepts the operation at the port, or is idle (`46_session_control.md` R163,
`60_exceptions.md` R188, `70_reset_and_hazards.md` R190). -/
def step (s : State) : Host.Outcome State Fault Refusal :=
  if s.resetReq then resetInput s
  else if s.portReady then
    match fetch s with
    | .nothing => .next s
    | .reserved op => execIllegal op (s.takeRecord [])
    | .operation i extra => exec i (s.takeRecord extra)
  else .next (transportStep s)

/-- The state with the record of an operation-table word presented at a ready port (log entry 23). -/
def State.withFetchWord (s : State) (nbits w : Nat) : State := s.present (recordOf nbits w)

end Sys2Proof.Machine
end

