-- ==== Sys2Proof/Machine/System.lean ====
section
/-! DEFINITION. Several framers: "the product of the single-instance models with any interleaving"
(`60_exceptions.md` R186). Each has its own channel and its own state; instances share nothing. That equal
reads of two instances past their scripts answer alike is a DESIGN CHOICE, log entry 28. -/

namespace Sys2Proof.Machine

/-- Instance `k` of a system takes a step. Which instance moves is the environment's choice: any sequence of
choices is an interleaving. -/
def systemStep (k : Nat) (system : List State) : Host.Outcome (List State) Fault Refusal :=
  match system[k]? with
  | none => .next system
  | some s =>
    match step s with
    | .next t => .next (system.set k t)
    | .fault r => .fault r
    | .refused r => .refused r

end Sys2Proof.Machine
end

