-- ==== Sys2Proof/Safety.lean ====
section
/-! DEFINITION. The terms claims are stated in: the invariant of the framer, the events of a send, and the
send as one procedure (`45_transport.md` R147). -/

namespace Sys2Proof.Machine

/-! ### The invariant -/

/-- A byte sequence the block may write: a normal frame or an ID-set frame, for a legal device ID
(`44_frame_codec.md` R122, R124). -/
def LegalFrame (b : List Byte) : Prop :=
  (∃ d p, 1 ≤ d ∧ d ≤ 8 ∧ b = frame d p) ∨ (∃ n, 1 ≤ n ∧ n ≤ 8 ∧ b = idFrame n)

/-- A channel event the block may cause: "the block makes only two kinds of read: `ChRead(|EXP|, TIMEOUT)`
with `|EXP|` 2 or 3, and `ChRead(1000, TIMEOUT)`", and a read never returns more than it asks
(`20_memory.md` R33, R34). -/
def LegalEvent : ChEvent → Prop
  | .write b => LegalFrame b
  | .read m _ r => (m = 2 ∨ m = 3 ∨ m = 1000) ∧ r.length ≤ m
  | .close => True

/-- What FB, EXP and the operand held for DEVID are during and after a send: a normal frame under DEVID with
the token `"ACK"`, or an ID-set frame with the echo of its ID (`10_state.md` R17, R18). -/
def SendRegisters (s : State) : Prop :=
  (∃ d p, s.devid = some d ∧ s.newId = none ∧ s.fb = frame d p ∧ s.exp = ackToken) ∨
  (∃ n, 1 ≤ n ∧ n ≤ 8 ∧ s.fb = idFrame n ∧ s.exp = hex2 n ∧
    (s.newId = some n ∨ s.portReady = true ∧ s.newId = none))

/-- The record holds the operation: exactly, or with further bytes after its last operand (log entry 3). -/
def Offers (record : List Byte) (i : Instr) : Prop :=
  decode record = .ok i ∨ ∃ extra, decode record = .error (.trailing i extra)

/-- The invariant of the framer: every register holds a value its rule allows. -/
structure State.Inv (s : State) : Prop where
  /-- "The values 0 and 9 to 255 can never be stored" (`10_state.md` R12). -/
  devid : ∀ d, s.devid = some d → 1 ≤ d ∧ d ≤ 8
  /-- "Legal values 1 to 255" (`10_state.md` R13). -/
  maxRetry : 1 ≤ s.maxRetry ∧ s.maxRetry ≤ 255
  /-- "Range 0 to MAXRETRY" (`10_state.md` R16). -/
  att : s.att ≤ s.maxRetry
  /-- W1 to W5 (`41_character_encoder.md` R82). -/
  subst : s.subst.Wf
  /-- No surrogate and nothing above 0x10FFFF is a key (`41_character_encoder.md` R83 (g); log entry 27). -/
  substKeys : s.subst.ScalarKeys
  /-- Idle after acceptance: nothing of a send stands (`60_exceptions.md` R174). -/
  idle : s.st = .idle → s.att = 0 ∧ s.fb = [] ∧ s.exp = [] ∧ s.res.cls ≠ .communication
  /-- A send runs in an open session, and OUT stays empty (`45_transport.md` R140). -/
  sendOpen : s.st ≠ .idle → s.devid.isSome = true ∧ s.out = [] ∧ SendRegisters s
  /-- "An operation in progress ... shows class NONE" (`10_state.md` R19). -/
  busyRes : s.portReady = false → s.res = ⟨.none, .zero, .none⟩
  /-- Another attempt is left when a frame is about to be written (`45_transport.md` R138). -/
  sending : s.st = .sending → s.att < s.maxRetry
  /-- A frame has been written when an answer is awaited or has failed. -/
  written : s.st = .awaitingAck ∨ s.st = .retrying → 1 ≤ s.att
  /-- "At Success it equals K" and RES is (OK, 0, ATT) (`10_state.md` R16, `45_transport.md` R144). -/
  success : s.st = .success → 1 ≤ s.att ∧ s.res = ⟨.ok, .zero, .value s.att⟩
  /-- "At Failed it equals MAXRETRY" (`10_state.md` R16, `60_exceptions.md` R177). -/
  failed : s.st = .failed → s.att = s.maxRetry ∧ s.res = ⟨.communication, .cNoAck, .value s.att⟩
  /-- OUT is "empty after any operation that ... ends in an error" (`10_state.md` R20). -/
  outOk : s.res.cls ≠ .ok → s.out = []
  /-- No operand buffer survives its operation (`10_state.md` R21). -/
  released : s.portReady = true → s.txt = [] ∧ s.img = [] ∧ s.pb = [] ∧ s.newId = none
  /-- Every channel event is one the block may cause (`20_memory.md` R33, R34). -/
  events : ∀ e ∈ s.hist, LegalEvent e

/-! ### What an accepted operation leaves -/

/-- `t` is `u` but for the transient operand buffers, which "none is readable by the host" of
(`10_state.md` R21), and the operand held by a SETID. -/
def SameButBuffers (t u : State) : Prop :=
  t = { u with txt := t.txt, img := t.img, pb := t.pb, newId := t.newId }

/-- The state an operation leaves that does not send: the acceptance writes (`46_session_control.md` R164),
RES, OUT, and nothing else. -/
def State.settled (r : Res) (out : List Byte) (s : State) : State :=
  { s with st := .idle, att := 0, res := r, out := out, fb := [], exp := [] }

/-- The state in which a send has been started with frame `f` and token `x`: the acceptance writes, FB, EXP
and ST (`45_transport.md` R132). -/
def State.started (f x : List Byte) (s : State) : State :=
  { s with st := .sending, att := 0, res := ⟨.none, .zero, .none⟩, out := [], fb := f, exp := x }

/-- Operation `i` in state `s` answers a next state, which is `u` but for the operand buffers. -/
def Answers (i : Instr) (s u : State) : Prop := ∃ t, exec i s = .next t ∧ SameButBuffers t u

/-! ### Operand domains as the rules list them -/

/-- One checked operand: its value, its domain, and the ValidationError outside it
(`43_command_builder.md` R101, `60_exceptions.md` R171). -/
structure Field where
  value : Nat
  lo    : Nat
  hi    : Nat
  cause : Cause
  info  : Info
  deriving DecidableEq, Repr

/-- The operand is legal. -/
abbrev InDomain (f : Field) : Prop := f.lo ≤ f.value ∧ f.value ≤ f.hi

/-- The checked operands of PLSC and SENDSC in order (`43_command_builder.md` R102). -/
def clockFields (t : ClockTime) : List Field :=
  [⟨t.weekday, 1, 7, .vWeekday, .value t.weekday⟩, ⟨t.month, 1, 12, .vMonth, .value t.month⟩,
   ⟨t.day, 1, 31, .vDay, .value t.day⟩, ⟨t.hour, 0, 23, .vHour, .value t.hour⟩,
   ⟨t.minute, 0, 59, .vMinute, .value t.minute⟩, ⟨t.second, 0, 59, .vSecond, .value t.second⟩]

/-- The checked fields of one schedule date-time, `pos` the position of its year among the ten
(`43_command_builder.md` R103). -/
def dateTimeFields (pos : Nat) (t : DateTime) : List Field :=
  [⟨t.month, 1, 12, .vMonth, .place (pos + 1) t.month⟩, ⟨t.day, 1, 31, .vDay, .place (pos + 2) t.day⟩,
   ⟨t.hour, 0, 23, .vHour, .place (pos + 3) t.hour⟩,
   ⟨t.minute, 0, 59, .vMinute, .place (pos + 4) t.minute⟩]

/-- The elements of a sequence operand, with their index (`60_exceptions.md` R171). -/
def elementFields (lo hi : Nat) (cause : Cause) (bytes : List Byte) : List Field :=
  bytes.mapIdx fun k b => ⟨b.toNat, lo, hi, cause, .place k b.toNat⟩

/-- The checked operands of PLT and SENDT in order (`43_command_builder.md` R103, R109). -/
def scheduleFields (schedule : Byte) (start stop : DateTime) (pages : List Byte) : List Field :=
  [⟨schedule.toNat, 0x41, 0x45, .vSchedule, .value schedule.toNat⟩] ++ dateTimeFields 0 start ++
    dateTimeFields 5 stop ++ [⟨pages.length, 0, 31, .vPageSchedLen, .value pages.length⟩] ++
    elementFields 0x41 0x45 .vPage pages

/-- The checks of an image in order (`42_graphics_packer.md` R91). -/
def imageFields (image : List Byte) : List Field :=
  ⟨image.length, 224, 224, .vImgLen, .value image.length⟩ :: elementFields 0 3 .vImgSym image

/-- The checked operands of PLG and SENDG in order (`43_command_builder.md` R104). -/
def graphicsFields (page : Byte) (block : Nat) (image : List Byte) : List Field :=
  [⟨page.toNat, 0x41, 0x50, .vGPage, .value page.toNat⟩, ⟨block, 1, 8, .vGBlock, .value block⟩] ++
    imageFields image

/-- Every operand is legal. -/
abbrev AllInDomain (fields : List Field) : Prop := ∀ f ∈ fields, InDomain f

/-- "The first violation found is the one reported" (`43_command_builder.md` R109): `r` is the
ValidationError of the first operand outside its domain. -/
def FirstViolation (fields : List Field) (r : Res) : Prop :=
  ∃ pre f post, fields = pre ++ f :: post ∧ AllInDomain pre ∧ ¬ InDomain f ∧
    r = ⟨.validation, f.cause, f.info⟩

/-- A payload no longer than a finite PAYLOAD_MAX (`44_frame_codec.md` R121). -/
def WithinPayloadMax (p : List Byte) : Prop := ∀ m, Config.payloadMax = some m → p.length ≤ m

/-- One answer for payloads PAYLOAD_MAX admits, another for longer ones; unbounded admits all
(`44_frame_codec.md` R121, decision D22). -/
def byPayloadMax {α : Type} (p : List Byte) (admitted tooLong : α) : α :=
  match Config.payloadMax with
  | none => admitted
  | some m => if p.length ≤ m then admitted else tooLong

/-! ### Payloads byte by byte -/

/-- The set clock payload (`30_encoding.md` R59). -/
def clockBytes (t : ClockTime) : List Byte :=
  [0x3C, 0x53, 0x43, 0x3E] ++
    [t.year % 100, t.weekday, t.month, t.day, t.hour, t.minute, t.second].flatMap dec2

/-- The set schedule payload (`30_encoding.md` R60). -/
def scheduleBytes (schedule : Byte) (start stop : DateTime) (pages : List Byte) : List Byte :=
  [0x3C, 0x54, schedule, 0x3E] ++
    [start.year % 100, start.month, start.day, start.hour, start.minute,
     stop.year % 100, stop.month, stop.day, stop.hour, stop.minute].flatMap dec2 ++ pages

/-- The graphics block payload (`30_encoding.md` R61). -/
def graphicsBytes (page : Byte) (block : Nat) (image : List Byte) : List Byte :=
  [0x3C, 0x47, page, byte (0x30 + block), 0x3E] ++ pack image

/-- With DEVID `d`, the sending operation `i` has legal operands and sends the frame `f` expecting the token
`x` (`45_transport.md` R140 to R143, R145). -/
def SendsFrame (d : Nat) (i : Instr) (f x : List Byte) : Prop :=
  match i with
  | .send p => WithinPayloadMax p ∧ f = frame d p ∧ x = [0x41, 0x43, 0x4B]
  | .sendsc t => AllInDomain (clockFields t) ∧ f = frame d (clockBytes t) ∧ x = [0x41, 0x43, 0x4B]
  | .sendt sc a b pages =>
    AllInDomain (scheduleFields sc a b pages) ∧ f = frame d (scheduleBytes sc a b pages) ∧
      x = [0x41, 0x43, 0x4B]
  | .sendg pg bl image =>
    AllInDomain (graphicsFields pg bl image) ∧ f = frame d (graphicsBytes pg bl image) ∧
      x = [0x41, 0x43, 0x4B]
  | .setid n => 1 ≤ n ∧ n ≤ 8 ∧ f = idFrame n ∧ x = hex2 n
  | .openSess _ | .close | .setcfg _ _ | .esc _ | .pack _ | .plsc _ | .plt _ _ _ _
  | .plg _ _ _ | .csum _ | .wrap _ _ | .wrapid _ => False

/-- DEVID after a successful send of operation `i`: the new ID for a SETID (`45_transport.md` R145). -/
def devidAfter (i : Instr) (d : Nat) : Nat :=
  match i with
  | .setid n => n
  | .openSess _ | .close | .setcfg _ _ | .esc _ | .pack _ | .plsc _ | .plt _ _ _ _ | .plg _ _ _
  | .csum _ | .wrap _ _ | .wrapid _ | .send _ | .sendsc _ | .sendt _ _ _ _ | .sendg _ _ _ => d

/-- The pure operations of `46_session_control.md` R166, SETCFG apart. -/
def isPure (i : Instr) : Bool :=
  match i with
  | .esc _ | .pack _ | .plsc _ | .plt _ _ _ _ | .plg _ _ _ | .csum _ | .wrap _ _ | .wrapid _ => true
  | .openSess _ | .close | .setcfg _ _ | .send _ | .sendsc _ | .sendt _ _ _ _ | .sendg _ _ _
  | .setid _ => false

/-! ### Text -/

/-- The code point is a key of the table or lies in 0..0x7F (`41_character_encoder.md` R80). -/
abbrev Mappable (t : SubstTable) (c : Nat) : Prop := c ∈ t.map Prod.fst ∨ c ≤ 0x7F

/-- Code point `c` becomes the bytes `b`: its token if it is a key, else its own byte up to 0x7F
(`41_character_encoder.md` R80). -/
abbrev PointBytes (t : SubstTable) (c : Nat) (b : List Byte) : Prop :=
  (c, b) ∈ t ∨ (c ∉ t.map Prod.fst ∧ c ≤ 0x7F ∧ b = [byte c])

/-! ### Graphics -/

/-- The code of the pixel in row `py`, column `col` of a valid image, whose port numbers equal the codes;
row 7 is the Black padding row (`42_graphics_packer.md` R90, R92). -/
def imageCode (image : List Byte) (py col : Nat) : Nat :=
  if py = 7 then 0 else (image[32 * py + col]?.getD 0).toNat

/-- The eight indices of a packed block that "cover the padding row" (`20_memory.md` R32). -/
def paddingIndices : List Nat := [14, 15, 30, 31, 46, 47, 62, 63]

/-! ### The answers and events of a send -/

/-- The channel script of attempts that fail: for each, the answer to the acknowledgement read and the
answer to the drain. -/
def missScript (misses : List (List Byte × List Byte)) : List (List Byte) :=
  misses.flatMap fun m => [m.1, m.2]

/-- The events of attempts that fail, with frame `fb`, acknowledgement reads of `n` bytes and timeout `t`:
write, acknowledgement read, drain (`20_memory.md` R41). -/
def missEvents (fb : List Byte) (n : Nat) (t : Timeout) (misses : List (List Byte × List Byte)) :
    List ChEvent :=
  misses.flatMap fun m => [.write fb, .read n t (m.1.take n), .read 1000 t (m.2.take 1000)]

/-- The log events of attempts that fail (`45_transport.md` R137). -/
def missLogs (n : Nat) (misses : List (List Byte × List Byte)) : List (List Byte × List Byte) :=
  misses.map fun m => (m.1.take n, m.2.take 1000)

/-- Every one of these attempts fails: what the acknowledgement read of `|X|` bytes returns is not the token
`X` (`45_transport.md` R135). -/
abbrev AllMiss (token : List Byte) (misses : List (List Byte × List Byte)) : Prop :=
  ∀ m ∈ misses, m.1.take token.length ≠ token

/-! ### Runs -/

/-- `k` steps of the framer, stopping at the first fault or refusal: what the host's `Host.Core.run` computes
on this machine, said over the model's own types. -/
def steps : Nat → State → Result
  | 0, s => .next s
  | k + 1, s =>
    match step s with
    | .next t => steps k t
    | .fault r => .fault r
    | .refused r => .refused r

/-! ### The send as one procedure -/

/-- The loop of `send(F, X)` in `45_transport.md` R147, FB, EXP and ATT being set: at most `fuel` further
rounds. -/
def sendLoop : Nat → State → State
  | 0, s => s
  | fuel + 1, s =>
    let s := ({ s with att := s.att + 1 } : State).chWrite s.fb
    let r := s.chAnswer s.exp.length
    let s := s.chRead s.exp.length
    if r = s.exp then s.succeed
    else
      let g := s.chAnswer 1000
      let s := (s.chRead 1000).logEvent r g
      if s.att < s.maxRetry then sendLoop fuel s else s.fail

end Sys2Proof.Machine
end

