-- ==== Sys2Proof/Certificates/Slice0/Obligations.lean ====
section
/-! DEFINITION. The statements about the framer, each citing the rules of the spec it formalises. The titles
and the citations also stand in OBLIGATIONS.json. The statement of an operation's rule also says its host op
code: the first byte of its record. -/

open Sys2Proof Sys2Proof.Machine

/-! ### Records: decoding and encoding -/

/-- Decoding the record of a well-formed operation gives that operation back, for every operation and every
operand its widths admit, and for every text element its three bytes can hold (record layout: log entries
1, 2). -/
def Obligations.DecodeEncodeGivesOperationBack : Prop :=
  ∀ i : Instr, i.wellFormed = true ∨ i.presentable = true → decode (encode i) = .ok i

/-- A record that decodes is the record of the operation it decodes to: no two records mean the same. The
operation is well-formed, but for the elements of a text, of which each fits its three bytes (log entries
1, 2). -/
def Obligations.DecodedRecordIsItsEncoding : Prop :=
  ∀ (record : List Byte) (i : Instr), decode record = .ok i →
    encode i = record ∧ i.presentable = true ∧ ((∀ text, i ≠ .esc text) → i.wellFormed = true)

/-- A few records written out from the op codes of `30_encoding.md` R70, one per format. -/
def Obligations.RecordsFromTheTableDecode : Prop :=
  decode [0x01, 0x05] = .ok (.openSess 5) ∧
  decode [0x10, 0x00, 0x20, 0xAC] = .ok (.esc [0x20AC]) ∧
  decode [0x30, 0x07, 0xE8, 5, 3, 15, 14, 30, 45] = .ok (.plsc ⟨2024, 5, 3, 15, 14, 30, 45⟩) ∧
  decode [0x50, 0x41, 0x42] = .ok (.send [0x41, 0x42]) ∧
  decode [0x54, 0x05] = .ok (.setid 5)

/-- A reserved code is accepted and refused at once (`30_encoding.md` R71, R72). That it is so whatever bytes come
with it is log entry 26 (DEDUCED), and that its record is taken from the list of presented records is log
entry 4 (DESIGN CHOICE). -/
def Obligations.ReservedCodeIsRefused : Prop :=
  ∀ (s : State) (op : Byte) (operands : List Byte) (later : List (List Byte)),
    s.resetReq = false → s.portReady = true → s.pending = (op :: operands) :: later →
    op.toNat ∉ [0x01, 0x02, 0x03, 0x10, 0x20, 0x30, 0x31, 0x32, 0x40, 0x41, 0x42, 0x50, 0x51, 0x52,
      0x53, 0x54] →
    ∃ t, step s = .next t ∧
      SameButBuffers t { s.settled ⟨.refused, .fIllegalOp, .value op.toNat⟩ [] with pending := later }

/-! ### The step -/

/-- A ready block with a decodable record at its port takes the record and executes its operation. -/
def Obligations.StepRunsDecodedOperation : Prop :=
  ∀ (s : State) (record : List Byte) (later : List (List Byte)) (i : Instr),
    s.resetReq = false → s.portReady = true → s.pending = record :: later → decode record = .ok i →
    step s = exec i { s with pending := later }

/-- While a send runs, a presented operation waits: the send takes its transition whatever is presented, and
what is presented stays (`46_session_control.md` R163). -/
def Obligations.PresentedOperationWaitsDuringSend : Prop :=
  ∀ s : State, s.resetReq = false → s.portReady = false →
    ∃ t, step s = .next t ∧ t.pending = s.pending ∧
      ∀ p, step { s with pending := p } = .next { t with pending := p }

/-- With nothing presented, or an operation not wholly presented, a ready block stays as it is
(`60_exceptions.md` R188, `30_encoding.md` R72; the second half is the model's reading, log entry 3). -/
def Obligations.IdleBlockStays : Prop :=
  ∀ s : State, s.resetReq = false → s.portReady = true →
    (s.pending = [] → step s = .next s) ∧
    (∀ record later, s.pending = record :: later → decode record = .error .truncated →
      step s = .next s)

/-- Every operation answers a next state, and so does every step, whatever bytes are at the port, but in one case:
a reset during a send is refused (`70_reset_and_hazards.md` R191; log entries 3, 15). -/
def Obligations.StepStopsOnlyForResetDuringSend : Prop :=
  (∀ (i : Instr) (s : State), ∃ t, exec i s = .next t) ∧
  (∀ s : State,
    (¬ (s.resetReq = true ∧ s.portReady = false) ∧ ∃ t, step s = .next t) ∨
    (s.resetReq = true ∧ s.portReady = false ∧ step s = .refused .resetDuringSend))

/-- The channel is an oracle (`20_memory.md` R34, R36; the script that holds its answers is log entry 5): a
read of `m` bytes can return every sequence of up to `m` bytes and never returns more, and whether a step
exists does not depend on what the channel answers. -/
def Obligations.ChannelIsAnOracle : Prop :=
  (∀ (s : State) (m : Nat) (r : List Byte), r.length ≤ m → (s.answerWith [r]).chAnswer m = r) ∧
  (∀ (s : State) (m : Nat), (s.chAnswer m).length ≤ m) ∧
  (∀ (s t : State) (answers : List (List Byte)), step s = .next t →
    ∃ u, step (s.answerWith answers) = .next u)

/-! ### Reset -/

/-- The registers after reset (`10_state.md` R25; the code of the default timeout is log entry 12's). -/
def Obligations.ResetRegisterValues : Prop :=
  State.reset.sess = .closed ∧ State.reset.devid = none ∧ State.reset.maxRetry = 3 ∧
  State.reset.timeout = Config.timeoutDefault ∧ State.reset.st = .idle ∧ State.reset.att = 0 ∧
  State.reset.fb = [] ∧ State.reset.exp = [] ∧ State.reset.res = ⟨.none, .zero, .none⟩ ∧
  State.reset.out = [] ∧ State.reset.subst = Config.substTable ∧ State.reset.portReady = true

/-- The reset input puts every register to its reset value and makes no channel event
(`70_reset_and_hazards.md` R190). -/
def Obligations.ResetInputRestoresRegisters : Prop :=
  ∀ s : State, s.resetReq = true → s.portReady = true →
    ∃ t, step s = .next t ∧ t.sess = .closed ∧ t.devid = none ∧ t.maxRetry = 3 ∧
      t.timeout = Config.timeoutDefault ∧ t.st = .idle ∧ t.att = 0 ∧ t.fb = [] ∧ t.exp = [] ∧
      t.out = [] ∧ t.res = ⟨.none, .zero, .none⟩ ∧ t.portReady = true ∧ t.hist = s.hist ∧
      t.script = s.script ∧ t.subst = s.subst

/-- A reset during a send has no step (`70_reset_and_hazards.md` R191). -/
def Obligations.ResetDuringSendHasNoStep : Prop :=
  ∀ s : State, s.resetReq = true → s.portReady = false → step s = .refused .resetDuringSend

/-! ### Session control -/

/-- OPEN (`46_session_control.md` R160): on a closed session a legal device ID opens it, any other is a
ValidationError; on an open session it is refused. -/
def Obligations.OpenFollowsItsRule : Prop :=
  ∀ (d : Nat) (s : State), s.portReady = true →
    (encode (.openSess d)).head? = some 0x01 ∧
    (s.sess = .closed → 1 ≤ d → d ≤ 8 →
      Answers (.openSess d) s { s.settled ⟨.ok, .zero, .none⟩ [] with sess := .opened d }) ∧
    (s.sess = .closed → d < 1 ∨ 8 < d →
      Answers (.openSess d) s (s.settled ⟨.validation, .vDevid, .value d⟩ [])) ∧
    (s.sess ≠ .closed → Answers (.openSess d) s (s.settled ⟨.refused, .fAlreadyOpen, .none⟩ []))

/-- CLOSE (`46_session_control.md` R161): an open session makes one `Close` event and is closed; a closed
one is refused. -/
def Obligations.CloseFollowsItsRule : Prop :=
  ∀ s : State, s.portReady = true →
    (encode .close).head? = some 0x02 ∧
    (s.sess ≠ .closed →
      Answers .close s
        { s.settled ⟨.ok, .zero, .none⟩ [] with sess := .closed, hist := s.hist ++ [.close] }) ∧
    (s.sess = .closed → Answers .close s (s.settled ⟨.refused, .fClosed, .none⟩ []))

/-- SETCFG (`46_session_control.md` R162): a maxRetry of 1..255 and the timeout are stored; 0 is a
ValidationError and changes neither. -/
def Obligations.SetcfgFollowsItsRule : Prop :=
  ∀ (m : Nat) (t : Timeout) (s : State), s.portReady = true →
    (encode (.setcfg m t)).head? = some 0x03 ∧
    (1 ≤ m → m ≤ 255 →
      Answers (.setcfg m t) s
        { s.settled ⟨.ok, .zero, .none⟩ [] with maxRetry := m, timeout := t }) ∧
    (m = 0 → Answers (.setcfg m t) s (s.settled ⟨.validation, .vMaxRetry, .value 0⟩ []))

/-! ### CharacterEncoder -/

/-- ESC (`41_character_encoder.md` R80, R81): the bytes of the code points in order, if every one is
mappable; else the EncodingError of the first that is not. For every table in which a key has one token. That
OUT holds the encoding of a text of any length is log entry 18 (DEDUCED): R81 limits the text by OUT's
capacity. -/
def Obligations.EscFollowsItsRule : Prop :=
  ∀ (text : List Nat) (s : State), s.portReady = true →
    (s.subst.map Prod.fst).Pairwise (· < ·) →
    (encode (.esc text)).head? = some 0x10 ∧
    (∀ parts, List.Forall₂ (PointBytes s.subst) text parts →
      Answers (.esc text) s (s.settled ⟨.ok, .zero, .none⟩ parts.flatten)) ∧
    (∀ pre c post, text = pre ++ c :: post → (∀ x ∈ pre, Mappable s.subst x) →
      ¬ Mappable s.subst c →
      Answers (.esc text) s (s.settled ⟨.encoding, .eUnmappable, .place pre.length c⟩ []))

/-- The euro sign becomes `"<U00>"` under every table meeting W1 to W5 (`41_character_encoder.md` R81, R82). -/
def Obligations.EuroBecomesItsToken : Prop :=
  ∀ s : State, s.portReady = true → s.subst.Wf →
    Answers (.esc [0x20AC]) s (s.settled ⟨.ok, .zero, .none⟩ [0x3C, 0x55, 0x30, 0x30, 0x3E])

/-- The output of a successful ESC has 5 bytes for each key and 1 for each other character
(`41_character_encoder.md` R83 (h)). -/
def Obligations.EscOutputLength : Prop :=
  ∀ (text : List Nat) (s t : State), s.portReady = true → s.subst.Wf →
    exec (.esc text) s = .next t → t.res.cls = .ok →
    t.out.length =
      5 * (text.filter fun c => decide (c ∈ s.subst.map Prod.fst)).length +
        (text.filter fun c => !decide (c ∈ s.subst.map Prod.fst)).length

/-! ### GraphicsPacker -/

/-- PACK (`42_graphics_packer.md` R91 to R93): a valid image gives 64 bytes, byte `i` holding the four codes
of its column group and row, the leftmost pixel most significant; an invalid one gives the ValidationError
of its length or of its first bad symbol. -/
def Obligations.PackFollowsItsRule : Prop :=
  ∀ (image : List Byte) (s : State), s.portReady = true →
    (encode (.pack image)).head? = some 0x20 ∧
    (AllInDomain (imageFields image) →
      ∃ out, Answers (.pack image) s (s.settled ⟨.ok, .zero, .none⟩ out) ∧ out.length = 64 ∧
        ∀ i, i < 64 →
          (out[i]?.getD 0).toNat =
            64 * imageCode image (i / 2 % 8) (4 * (i % 2 + i / 16 * 2)) +
            16 * imageCode image (i / 2 % 8) (4 * (i % 2 + i / 16 * 2) + 1) +
            4 * imageCode image (i / 2 % 8) (4 * (i % 2 + i / 16 * 2) + 2) +
            imageCode image (i / 2 % 8) (4 * (i % 2 + i / 16 * 2) + 3)) ∧
    (∀ r, FirstViolation (imageFields image) r → Answers (.pack image) s (s.settled r []))

/-- Packing is a bijection between valid images and the 64-byte blocks whose padding bytes are zero
(`42_graphics_packer.md` R94). -/
def Obligations.PackIsBijective : Prop :=
  (∀ a b, AllInDomain (imageFields a) → AllInDomain (imageFields b) → pack a = pack b → a = b) ∧
  (∀ a, AllInDomain (imageFields a) →
    (pack a).length = 64 ∧ ∀ i ∈ paddingIndices, (pack a)[i]? = some 0) ∧
  (∀ block : List Byte, block.length = 64 → (∀ i ∈ paddingIndices, block[i]? = some 0) →
    ∃ a, AllInDomain (imageFields a) ∧ pack a = block)

/-! ### CommandBuilder -/

/-- PLSC (`43_command_builder.md` R102). -/
def Obligations.PlscFollowsItsRule : Prop :=
  ∀ (time : ClockTime) (s : State), s.portReady = true →
    (encode (.plsc time)).head? = some 0x30 ∧
    (AllInDomain (clockFields time) →
      Answers (.plsc time) s (s.settled ⟨.ok, .zero, .none⟩ (clockBytes time)) ∧
        (clockBytes time).length = 18) ∧
    (∀ r, FirstViolation (clockFields time) r → Answers (.plsc time) s (s.settled r []))

/-- PLT (`43_command_builder.md` R103). -/
def Obligations.PltFollowsItsRule : Prop :=
  ∀ (schedule : Byte) (start stop : DateTime) (pages : List Byte) (s : State), s.portReady = true →
    (encode (.plt schedule start stop pages)).head? = some 0x31 ∧
    (AllInDomain (scheduleFields schedule start stop pages) →
      Answers (.plt schedule start stop pages) s
          (s.settled ⟨.ok, .zero, .none⟩ (scheduleBytes schedule start stop pages)) ∧
        (scheduleBytes schedule start stop pages).length = 24 + pages.length) ∧
    (∀ r, FirstViolation (scheduleFields schedule start stop pages) r →
      Answers (.plt schedule start stop pages) s (s.settled r []))

/-- PLG (`43_command_builder.md` R104). -/
def Obligations.PlgFollowsItsRule : Prop :=
  ∀ (page : Byte) (block : Nat) (image : List Byte) (s : State), s.portReady = true →
    (encode (.plg page block image)).head? = some 0x32 ∧
    (AllInDomain (graphicsFields page block image) →
      Answers (.plg page block image) s
          (s.settled ⟨.ok, .zero, .none⟩ (graphicsBytes page block image)) ∧
        (graphicsBytes page block image).length = 69) ∧
    (∀ r, FirstViolation (graphicsFields page block image) r →
      Answers (.plg page block image) s (s.settled r []))

/-! ### FrameCodec -/

/-- CSUM (`44_frame_codec.md` R120, R121). -/
def Obligations.CsumFollowsItsRule : Prop :=
  ∀ (p : List Byte) (s : State), s.portReady = true →
    (encode (.csum p)).head? = some 0x40 ∧
    (WithinPayloadMax p →
      Answers (.csum p) s (s.settled ⟨.ok, .zero, .none⟩ [p.foldl (fun c b => c ^^^ b) 0x00])) ∧
    Answers (.csum p) s
      (byPayloadMax p (s.settled ⟨.ok, .zero, .none⟩ [p.foldl (fun c b => c ^^^ b) 0x00])
        (s.settled ⟨.validation, .vPayloadLen, .value p.length⟩ []))

/-- The checksum does not depend on the order of the bytes, is the xor of the checksums of the parts, and
cancels itself when appended (`44_frame_codec.md` R126). -/
def Obligations.ChecksumLaws : Prop :=
  (∀ p q : List Byte, p.Perm q → checksum p = checksum q) ∧
  (∀ p q : List Byte, checksum (p ++ q) = checksum p ^^^ checksum q) ∧
  (∀ (p : List Byte) (b : Byte), checksum (p ++ [b, b]) = checksum p) ∧
  (∀ p : List Byte, checksum (p ++ [checksum p]) = 0)

/-- WRAP (`44_frame_codec.md` R123): the device ID is checked before the payload length. -/
def Obligations.WrapFollowsItsRule : Prop :=
  ∀ (d : Nat) (p : List Byte) (s : State), s.portReady = true →
    (encode (.wrap d p)).head? = some 0x41 ∧
    (1 ≤ d → d ≤ 8 → WithinPayloadMax p →
      Answers (.wrap d p) s (s.settled ⟨.ok, .zero, .none⟩ (frame d p))) ∧
    (d < 1 ∨ 8 < d → Answers (.wrap d p) s (s.settled ⟨.validation, .vDevid, .value d⟩ [])) ∧
    (1 ≤ d → d ≤ 8 →
      Answers (.wrap d p) s
        (byPayloadMax p (s.settled ⟨.ok, .zero, .none⟩ (frame d p))
          (s.settled ⟨.validation, .vPayloadLen, .value p.length⟩ [])))

/-- The layout of a normal frame, offset by offset, for the legal IDs (`30_encoding.md` R55). -/
def Obligations.FrameLayout : Prop :=
  ∀ (d : Nat) (p : List Byte), 1 ≤ d → d ≤ 8 →
    (frame d p).length = 11 + p.length ∧
    (frame d p).take 6 = [0x3C, 0x49, 0x44, 0x30, byte (0x30 + d), 0x3E] ∧
    ((frame d p).drop 6).take p.length = p ∧
    ((frame d p).drop (6 + p.length)).take 2 = hex2 (checksum p).toNat ∧
    (frame d p).drop (8 + p.length) = [0x3C, 0x45, 0x3E]

/-- The positional decoder recovers device ID, payload and checksum from every frame
(`44_frame_codec.md` R127). -/
def Obligations.UnframeRecoversFrame : Prop :=
  ∀ (d : Nat) (p : List Byte), 1 ≤ d → d ≤ 8 →
    unframe (frame d p) = some (d, p, (checksum p).toNat)

/-- WRAPID (`44_frame_codec.md` R124, R125): the 11 bytes `<ID><0n><E>`. -/
def Obligations.WrapidFollowsItsRule : Prop :=
  ∀ (n : Nat) (s : State), s.portReady = true →
    (encode (.wrapid n)).head? = some 0x42 ∧
    (1 ≤ n → n ≤ 8 →
      Answers (.wrapid n) s
        (s.settled ⟨.ok, .zero, .none⟩
          [0x3C, 0x49, 0x44, 0x3E, 0x3C, 0x30, byte (0x30 + n), 0x3E, 0x3C, 0x45, 0x3E])) ∧
    (n < 1 ∨ 8 < n → Answers (.wrapid n) s (s.settled ⟨.validation, .vDevid, .value n⟩ []))

/-- `hex2` of a byte: two digits of `'0'..'9'`, `'A'..'F'`, high digit first, that spell its value
(`30_encoding.md` R52). -/
def Obligations.HexDigitsSpellTheByte : Prop :=
  ∀ v, v < 256 →
    ∃ h l, hex2 v = [h, l] ∧ hexPair [h, l] = some v ∧
      h ∈ [0x30, 0x31, 0x32, 0x33, 0x34, 0x35, 0x36, 0x37, 0x38, 0x39, 0x41, 0x42, 0x43, 0x44, 0x45,
        0x46].map byte ∧
      l ∈ [0x30, 0x31, 0x32, 0x33, 0x34, 0x35, 0x36, 0x37, 0x38, 0x39, 0x41, 0x42, 0x43, 0x44, 0x45,
        0x46].map byte

/-- A payload of up to 69 bytes, a graphics block payload among them, is never too long, whatever PAYLOAD_MAX
is (`00_scope.md` R5). -/
def Obligations.PayloadMaxAdmitsGraphicsBlock : Prop :=
  ∀ p : List Byte, p.length ≤ 69 → WithinPayloadMax p

/-! ### Transport: starting a send -/

/-- SEND (`45_transport.md` R140, R132): on an open session the frame under DEVID and the token are stored
and the machine enters Sending; an overlong payload is a ValidationError; a closed session refuses. -/
def Obligations.SendStartsOrStops : Prop :=
  ∀ (p : List Byte) (s : State), s.portReady = true →
    (encode (.send p)).head? = some 0x50 ∧
    (∀ d, s.devid = some d → WithinPayloadMax p →
      Answers (.send p) s (s.started (frame d p) [0x41, 0x43, 0x4B])) ∧
    (∀ d, s.devid = some d →
      Answers (.send p) s
        (byPayloadMax p (s.started (frame d p) [0x41, 0x43, 0x4B])
          (s.settled ⟨.validation, .vPayloadLen, .value p.length⟩ []))) ∧
    (s.sess = .closed → Answers (.send p) s (s.settled ⟨.refused, .fClosed, .none⟩ []))

/-- SENDSC (`45_transport.md` R141): the session is checked, then the operands of PLSC, then the payload is
framed under DEVID. -/
def Obligations.SendscStartsOrStops : Prop :=
  ∀ (time : ClockTime) (s : State), s.portReady = true →
    (encode (.sendsc time)).head? = some 0x51 ∧
    (∀ d, s.devid = some d → AllInDomain (clockFields time) →
      Answers (.sendsc time) s (s.started (frame d (clockBytes time)) [0x41, 0x43, 0x4B])) ∧
    (∀ d r, s.devid = some d → FirstViolation (clockFields time) r →
      Answers (.sendsc time) s (s.settled r [])) ∧
    (s.sess = .closed → Answers (.sendsc time) s (s.settled ⟨.refused, .fClosed, .none⟩ []))

/-- SENDT (`45_transport.md` R142), as SENDSC with PLT. -/
def Obligations.SendtStartsOrStops : Prop :=
  ∀ (schedule : Byte) (start stop : DateTime) (pages : List Byte) (s : State), s.portReady = true →
    (encode (.sendt schedule start stop pages)).head? = some 0x52 ∧
    (∀ d, s.devid = some d → AllInDomain (scheduleFields schedule start stop pages) →
      Answers (.sendt schedule start stop pages) s
        (s.started (frame d (scheduleBytes schedule start stop pages)) [0x41, 0x43, 0x4B])) ∧
    (∀ d r, s.devid = some d → FirstViolation (scheduleFields schedule start stop pages) r →
      Answers (.sendt schedule start stop pages) s (s.settled r [])) ∧
    (s.sess = .closed →
      Answers (.sendt schedule start stop pages) s (s.settled ⟨.refused, .fClosed, .none⟩ []))

/-- SENDG (`45_transport.md` R143), as SENDSC with PLG. -/
def Obligations.SendgStartsOrStops : Prop :=
  ∀ (page : Byte) (block : Nat) (image : List Byte) (s : State), s.portReady = true →
    (encode (.sendg page block image)).head? = some 0x53 ∧
    (∀ d, s.devid = some d → AllInDomain (graphicsFields page block image) →
      Answers (.sendg page block image) s
        (s.started (frame d (graphicsBytes page block image)) [0x41, 0x43, 0x4B])) ∧
    (∀ d r, s.devid = some d → FirstViolation (graphicsFields page block image) r →
      Answers (.sendg page block image) s (s.settled r [])) ∧
    (s.sess = .closed →
      Answers (.sendg page block image) s (s.settled ⟨.refused, .fClosed, .none⟩ []))

/-- SETID up to its first frame (`45_transport.md` R145): the ID-set frame and the echo of the new ID;
DEVID is not touched yet. -/
def Obligations.SetidStartsOrStops : Prop :=
  ∀ (n : Nat) (s : State), s.portReady = true →
    (encode (.setid n)).head? = some 0x54 ∧
    (∀ d, s.devid = some d → 1 ≤ n → n ≤ 8 →
      Answers (.setid n) s (s.started (idFrame n) (hex2 n))) ∧
    (∀ d, s.devid = some d → n < 1 ∨ 8 < n →
      Answers (.setid n) s (s.settled ⟨.validation, .vDevid, .value n⟩ [])) ∧
    (s.sess = .closed → Answers (.setid n) s (s.settled ⟨.refused, .fClosed, .none⟩ []))

/-! ### Transport: the transitions -/

/-- Sending: ATT is incremented, the whole of FB is written in one call, and nothing is read
(`45_transport.md` R134). -/
def Obligations.SendingWritesWholeFrame : Prop :=
  ∀ s : State, s.resetReq = false → s.st = .sending →
    step s = .next { s with att := s.att + 1, hist := s.hist ++ [.write s.fb], st := .awaitingAck }

/-- AwaitingAck, whatever the channel answers (`45_transport.md` R135 to R137): one read of |EXP| bytes under
TIMEOUT; on an exact match Success with nothing further on the channel; otherwise exactly one drain of up to
1000 bytes, the log event, and Retrying. Where a script gives the answers (log entry 5), these are they, cut to
the length asked (log entry 6). That a read event holds the timeout is log entry 7, that the log events are
recorded log entry 22. -/
def Obligations.AwaitingAckMatchesOrDrains : Prop :=
  ∀ s : State, s.resetReq = false → s.st = .awaitingAck →
    ∃ r g t, r.length ≤ s.exp.length ∧ g.length ≤ 1000 ∧ step s = .next t ∧
      (∀ a rest, s.script = a :: rest → r = a.take s.exp.length) ∧
      (∀ a b rest, s.script = a :: b :: rest → g = b.take 1000) ∧
      (r = s.exp →
        t.st = .success ∧ t.res = ⟨.ok, .zero, .value s.att⟩ ∧ t.att = s.att ∧ t.fb = s.fb ∧
        t.exp = s.exp ∧ t.log = s.log ∧ t.script = s.script.tail ∧
        t.hist = s.hist ++ [.read s.exp.length s.timeout r]) ∧
      (r ≠ s.exp →
        t.st = .retrying ∧ t.res = s.res ∧ t.att = s.att ∧ t.fb = s.fb ∧ t.exp = s.exp ∧
        t.sess = s.sess ∧ t.log = s.log ++ [(r, g)] ∧ t.script = s.script.tail.tail ∧
        t.hist = s.hist ++ [.read s.exp.length s.timeout r, .read 1000 s.timeout g])

/-- Retrying: Sending again while ATT < MAXRETRY, else Failed with the CommunicationError; no channel action
either way (`45_transport.md` R138). -/
def Obligations.RetryingCountsAttempts : Prop :=
  ∀ s : State, s.resetReq = false → s.st = .retrying →
    (s.att < s.maxRetry → step s = .next { s with st := .sending }) ∧
    (s.maxRetry ≤ s.att →
      ∃ t, step s = .next t ∧
        SameButBuffers t
          { s with st := .failed, res := ⟨.communication, .cNoAck, .value s.att⟩ })

/-! ### Transport: whole sends -/

/-- A sending operation that the channel acknowledges on attempt K ends in Success with ATT = K after exactly
K writes of one frame, K acknowledgement reads and K-1 drains, and DEVID is the new ID after a SETID
(`45_transport.md` R139 (a), R145). The answers come from the script (log entries 5, 6); the timeout in the read
events is log entry 7, the recorded log is log entry 22. -/
def Obligations.SendSucceedsAtMatchingAttempt : Prop :=
  ∀ (i : Instr) (s : State) (d : Nat) (f x : List Byte) (misses : List (List Byte × List Byte))
    (answer : List Byte) (rest : List (List Byte)),
    s.portReady = true → s.resetReq = false → s.devid = some d → SendsFrame d i f x →
    misses.length < s.maxRetry → AllMiss x misses → answer.take x.length = x →
    s.script = missScript misses ++ answer :: rest →
    ∃ t u, exec i s = .next t ∧ steps (3 * misses.length + 2) t = .next u ∧
      SameButBuffers u
        { s with
          st := .success
          att := misses.length + 1
          fb := f
          exp := x
          res := ⟨.ok, .zero, .value (misses.length + 1)⟩
          out := []
          sess := .opened (devidAfter i d)
          hist := s.hist ++ missEvents f x.length s.timeout misses ++
            [.write f, .read x.length s.timeout x]
          log := s.log ++ missLogs x.length misses
          script := rest
          reads := u.reads }

/-- A sending operation that is never acknowledged ends in Failed with ATT = MAXRETRY after exactly MAXRETRY
writes of one frame, as many acknowledgement reads and as many drains; DEVID keeps its value
(`45_transport.md` R139 (b), R145, `60_exceptions.md` R177). The answers come from the script (log entries 5, 6);
the timeout in the read events is log entry 7, the recorded log is log entry 22. -/
def Obligations.SendFailsAfterMaxRetryAttempts : Prop :=
  ∀ (i : Instr) (s : State) (d : Nat) (f x : List Byte) (misses : List (List Byte × List Byte))
    (rest : List (List Byte)),
    s.portReady = true → s.resetReq = false → s.devid = some d → SendsFrame d i f x →
    1 ≤ s.maxRetry → misses.length = s.maxRetry → AllMiss x misses →
    s.script = missScript misses ++ rest →
    ∃ t u, exec i s = .next t ∧ steps (3 * s.maxRetry) t = .next u ∧
      SameButBuffers u
        { s with
          st := .failed
          att := s.maxRetry
          fb := f
          exp := x
          res := ⟨.communication, .cNoAck, .value s.maxRetry⟩
          out := []
          hist := s.hist ++ missEvents f x.length s.timeout misses
          log := s.log ++ missLogs x.length misses
          script := rest
          reads := u.reads }

/-- Whatever the channel answers, a running send reaches Success or Failed within three steps for each attempt
that is left (`45_transport.md` R139 (c)). -/
def Obligations.EverySendEnds : Prop :=
  ∀ s : State, s.resetReq = false → s.portReady = false →
    ∃ k u, k ≤ 3 * (s.maxRetry - s.att) + 3 ∧ steps k s = .next u ∧
      (u.st = .success ∨ u.st = .failed)

/-- The machine's steps and the procedure of `45_transport.md` R147 have the same end state and the same
channel events, whatever the channel answers. -/
def Obligations.MachineEqualsProcedure : Prop :=
  ∀ s : State, s.resetReq = false → s.st = .sending → s.att < s.maxRetry →
    ∃ k, k ≤ 3 * (s.maxRetry - s.att) ∧
      steps k s = .next (sendLoop (s.maxRetry - s.att) s) ∧
      ((sendLoop (s.maxRetry - s.att) s).st = .success ∨
        (sendLoop (s.maxRetry - s.att) s).st = .failed)

/-- During a send nothing changes FB, EXP, MAXRETRY or TIMEOUT, nor DEVID before the send has succeeded
(`20_memory.md` R45). -/
def Obligations.FrameIsSnapshot : Prop :=
  ∀ s t : State, s.portReady = false → step s = .next t →
    t.fb = s.fb ∧ t.exp = s.exp ∧ t.maxRetry = s.maxRetry ∧ t.timeout = s.timeout ∧
      t.subst = s.subst ∧ (t.st ≠ .success → t.devid = s.devid)

/-! ### Invariants -/

/-- The state after reset meets the invariant, whatever the open entries of SUBST are. -/
def Obligations.ResetMeetsInvariant : Prop := State.reset.Inv

/-- Every step keeps the invariant: the device ID stays legal, MAXRETRY stays in 1..255, ATT never passes it,
RES, FB, EXP and OUT are those of the machine's state, SUBST keeps W1 to W5 and R83 (g), and every frame written and every
read made is a legal one. -/
def Obligations.EveryStepKeepsInvariant : Prop :=
  ∀ s t : State, s.Inv → step s = .next t → t.Inv

/-- What the host, the reset line and the channel do between steps keeps the invariant: whatever record is
presented and whatever the channel will answer (log entries 4, 5, 15). -/
def Obligations.OutsideInputsKeepInvariant : Prop :=
  ∀ s : State, s.Inv → ∀ (record : List Byte) (answers : List (List Byte)),
    (s.offer record).Inv ∧ s.assertReset.Inv ∧ (s.answerWith answers).Inv

/-! ### The whole machine -/

/-- An operation presented while the port is not ready is not executed (`46_session_control.md` R163; that
nothing happens to the state by it is the model's form of waiting, log entry 17). -/
def Obligations.NoOperationActsWhileBusy : Prop :=
  ∀ (i : Instr) (s : State), s.portReady = false → exec i s = .next s

/-- "The outcome of an operation never depends on the outcome of an earlier one except through SESS, DEVID,
MAXRETRY and TIMEOUT" (`46_session_control.md` R164): the registers of an earlier outcome may hold anything. -/
def Obligations.OutcomeIgnoresEarlierResults : Prop :=
  ∀ (i : Instr) (s : State) (st : Fsm) (att : Nat) (fb exp out pb img : List Byte) (txt : List Nat)
    (res : Res) (newId : Option Nat),
    s.portReady = true → st = .idle ∨ st = .success ∨ st = .failed →
    exec i { s with
      st := st, att := att, fb := fb, exp := exp, out := out, pb := pb, img := img, txt := txt,
      res := res, newId := newId } = exec i s

/-- An operation that ends in a ValidationError, an EncodingError or a refusal leaves nothing but the acceptance
writes and RES (`60_exceptions.md` R174). -/
def Obligations.ErrorsArePrecise : Prop :=
  ∀ (i : Instr) (s t : State), s.portReady = true → exec i s = .next t →
    t.res.cls = .validation ∨ t.res.cls = .encoding ∨ t.res.cls = .refused →
    SameButBuffers t (s.settled t.res [])

/-- No operation ends silently: it has started a send, or its result class is OK or an error class, and with
an error class no byte is delivered (`60_exceptions.md` R179). -/
def Obligations.EveryOperationReportsItsResult : Prop :=
  ∀ (i : Instr) (s t : State), s.portReady = true → exec i s = .next t →
    (t.st = .sending ∧ t.res.cls = .none ∧ t.out = []) ∨
    (t.st = .idle ∧
      (t.res.cls = .ok ∨ t.res.cls = .validation ∨ t.res.cls = .encoding ∨ t.res.cls = .refused) ∧
      (t.res.cls ≠ .ok → t.out = []))

/-- The pure operations write OUT and RES beyond the acceptance writes, and nothing else: no channel event, no
control register (`10_state.md` R26, `41_character_encoder.md` R84, `43_command_builder.md` R100). -/
def Obligations.PureOperationsFrame : Prop :=
  ∀ (i : Instr) (s t : State), s.portReady = true → isPure i = true → exec i s = .next t →
    SameButBuffers t (s.settled t.res t.out)

/-- At acceptance only CLOSE makes a channel event; no operation reads the channel before its send runs
(`10_state.md` R26). -/
def Obligations.OnlyCloseTouchesChannelAtAcceptance : Prop :=
  ∀ (i : Instr) (s t : State), exec i s = .next t →
    (i ≠ .close → t.hist = s.hist) ∧ t.script = s.script ∧ t.reads = s.reads ∧ t.log = s.log ∧
      (i = .close → t.hist = s.hist ∨ t.hist = s.hist ++ [.close])

/-- "No operation other than OPEN and SETID changes" DEVID, and only SETCFG changes MAXRETRY and TIMEOUT
(`10_state.md` R11 to R14): a step without reset that changes one of them executes such an operation, or is
the success of a SETID. SUBST never changes. -/
def Obligations.ControlRegisterWriters : Prop :=
  ∀ s t : State, s.resetReq = false → step s = .next t →
    t.subst = s.subst ∧
    (t.maxRetry ≠ s.maxRetry ∨ t.timeout ≠ s.timeout →
      s.portReady = true ∧ ∃ r later m c, s.pending = r :: later ∧ Offers r (.setcfg m c)) ∧
    (t.sess ≠ s.sess →
      (s.portReady = true ∧ ∃ r later i, s.pending = r :: later ∧ Offers r i ∧
        (i = .close ∨ ∃ d, i = .openSess d)) ∨
      (s.st = .awaitingAck ∧ t.st = .success ∧ ∃ n, s.newId = some n ∧ t.devid = some n))

/-- WRAP with the session's own DEVID gives exactly the frame that SEND with the same payload stores to write
(`44_frame_codec.md` R128 (f)). -/
def Obligations.WrapGivesTheFrameSendWrites : Prop :=
  ∀ (p : List Byte) (s : State) (d : Nat), s.portReady = true → s.devid = some d → 1 ≤ d → d ≤ 8 →
    WithinPayloadMax p →
    ∃ t u, exec (.wrap d p) s = .next t ∧ exec (.send p) s = .next u ∧ t.out = u.fb ∧
      t.out.length = 11 + p.length

/-- A step of one instance leaves every other instance as it is (`60_exceptions.md` R186). -/
def Obligations.InstancesShareNothing : Prop :=
  ∀ (k j : Nat) (system system' : List State), systemStep k system = .next system' → j ≠ k →
    system'[j]? = system[j]? ∧ system'.length = system.length

/-! ### Operands and bytes beyond the operations' own -/

/-- An operation with further bytes after its last operand runs like any other: the record is taken and the
operation executed on its own operands. What the port presents in place of the further bytes is open (free
value `Config.extraBytes`, log entry 3). -/
def Obligations.OperationWithExtraBytesRuns : Prop :=
  ∀ (s : State) (record : List Byte) (later : List (List Byte)) (i : Instr) (extra : List Byte),
    s.resetReq = false → s.portReady = true → s.pending = record :: later →
    decode record = .error (.trailing i extra) →
    i.wellFormed = true ∧ encode i ++ extra = record ∧ extra ≠ [] ∧
      ∃ more, step s = exec i { s with pending := more ++ later }

/-- A surrogate or a number above 0x10FFFF, one wider than 21 bits among them, is an EncodingError if nothing
before it is unmappable (`41_character_encoder.md` R83 (g), `10_state.md` R27), for every table whose keys are
code points of Unicode text (log entry 27). -/
def Obligations.EscRejectsNonScalars : Prop :=
  ∀ (s : State) (pre : List Nat) (c : Nat) (post : List Nat), s.portReady = true →
    s.subst.ScalarKeys → (∀ x ∈ pre, Mappable s.subst x) →
    (0xD800 ≤ c ∧ c ≤ 0xDFFF) ∨ 0x10FFFF < c →
    Answers (.esc (pre ++ c :: post)) s
      (s.settled ⟨.encoding, .eUnmappable, .place pre.length c⟩ [])
end

