-- ==== Sys2Proof/Laws/State.lean ====
section
/-! SUPPORT. What each named update of the state does to each field, so that no proof unfolds a record
update. -/

namespace Sys2Proof.Machine

variable (s : State)

/-! ### `State.releaseBuffers` -/

@[simp] theorem State.releaseBuffers_sess : s.releaseBuffers.sess = s.sess := rfl
@[simp] theorem State.releaseBuffers_maxRetry : s.releaseBuffers.maxRetry = s.maxRetry := rfl
@[simp] theorem State.releaseBuffers_timeout : s.releaseBuffers.timeout = s.timeout := rfl
@[simp] theorem State.releaseBuffers_st : s.releaseBuffers.st = s.st := rfl
@[simp] theorem State.releaseBuffers_att : s.releaseBuffers.att = s.att := rfl
@[simp] theorem State.releaseBuffers_fb : s.releaseBuffers.fb = s.fb := rfl
@[simp] theorem State.releaseBuffers_exp : s.releaseBuffers.exp = s.exp := rfl
@[simp] theorem State.releaseBuffers_res : s.releaseBuffers.res = s.res := rfl
@[simp] theorem State.releaseBuffers_out : s.releaseBuffers.out = s.out := rfl
@[simp] theorem State.releaseBuffers_txt : s.releaseBuffers.txt = [] := rfl
@[simp] theorem State.releaseBuffers_img : s.releaseBuffers.img = [] := rfl
@[simp] theorem State.releaseBuffers_pb : s.releaseBuffers.pb = [] := rfl
@[simp] theorem State.releaseBuffers_subst : s.releaseBuffers.subst = s.subst := rfl
@[simp] theorem State.releaseBuffers_newId : s.releaseBuffers.newId = none := rfl
@[simp] theorem State.releaseBuffers_hist : s.releaseBuffers.hist = s.hist := rfl
@[simp] theorem State.releaseBuffers_log : s.releaseBuffers.log = s.log := rfl
@[simp] theorem State.releaseBuffers_script : s.releaseBuffers.script = s.script := rfl
@[simp] theorem State.releaseBuffers_reads : s.releaseBuffers.reads = s.reads := rfl
@[simp] theorem State.releaseBuffers_pending : s.releaseBuffers.pending = s.pending := rfl
@[simp] theorem State.releaseBuffers_resetReq : s.releaseBuffers.resetReq = s.resetReq := rfl

/-! ### `State.loadTxt` -/

@[simp] theorem State.loadTxt_sess (text : List Nat) : (s.loadTxt text).sess = s.sess := rfl
@[simp] theorem State.loadTxt_maxRetry (text : List Nat) : (s.loadTxt text).maxRetry = s.maxRetry := rfl
@[simp] theorem State.loadTxt_timeout (text : List Nat) : (s.loadTxt text).timeout = s.timeout := rfl
@[simp] theorem State.loadTxt_st (text : List Nat) : (s.loadTxt text).st = s.st := rfl
@[simp] theorem State.loadTxt_att (text : List Nat) : (s.loadTxt text).att = s.att := rfl
@[simp] theorem State.loadTxt_fb (text : List Nat) : (s.loadTxt text).fb = s.fb := rfl
@[simp] theorem State.loadTxt_exp (text : List Nat) : (s.loadTxt text).exp = s.exp := rfl
@[simp] theorem State.loadTxt_res (text : List Nat) : (s.loadTxt text).res = s.res := rfl
@[simp] theorem State.loadTxt_out (text : List Nat) : (s.loadTxt text).out = s.out := rfl
@[simp] theorem State.loadTxt_txt (text : List Nat) : (s.loadTxt text).txt = text := rfl
@[simp] theorem State.loadTxt_img (text : List Nat) : (s.loadTxt text).img = s.img := rfl
@[simp] theorem State.loadTxt_pb (text : List Nat) : (s.loadTxt text).pb = s.pb := rfl
@[simp] theorem State.loadTxt_subst (text : List Nat) : (s.loadTxt text).subst = s.subst := rfl
@[simp] theorem State.loadTxt_newId (text : List Nat) : (s.loadTxt text).newId = s.newId := rfl
@[simp] theorem State.loadTxt_hist (text : List Nat) : (s.loadTxt text).hist = s.hist := rfl
@[simp] theorem State.loadTxt_log (text : List Nat) : (s.loadTxt text).log = s.log := rfl
@[simp] theorem State.loadTxt_script (text : List Nat) : (s.loadTxt text).script = s.script := rfl
@[simp] theorem State.loadTxt_reads (text : List Nat) : (s.loadTxt text).reads = s.reads := rfl
@[simp] theorem State.loadTxt_pending (text : List Nat) : (s.loadTxt text).pending = s.pending := rfl
@[simp] theorem State.loadTxt_resetReq (text : List Nat) : (s.loadTxt text).resetReq = s.resetReq := rfl

/-! ### `State.loadImg` -/

@[simp] theorem State.loadImg_sess (image : List Byte) : (s.loadImg image).sess = s.sess := rfl
@[simp] theorem State.loadImg_maxRetry (image : List Byte) : (s.loadImg image).maxRetry = s.maxRetry := rfl
@[simp] theorem State.loadImg_timeout (image : List Byte) : (s.loadImg image).timeout = s.timeout := rfl
@[simp] theorem State.loadImg_st (image : List Byte) : (s.loadImg image).st = s.st := rfl
@[simp] theorem State.loadImg_att (image : List Byte) : (s.loadImg image).att = s.att := rfl
@[simp] theorem State.loadImg_fb (image : List Byte) : (s.loadImg image).fb = s.fb := rfl
@[simp] theorem State.loadImg_exp (image : List Byte) : (s.loadImg image).exp = s.exp := rfl
@[simp] theorem State.loadImg_res (image : List Byte) : (s.loadImg image).res = s.res := rfl
@[simp] theorem State.loadImg_out (image : List Byte) : (s.loadImg image).out = s.out := rfl
@[simp] theorem State.loadImg_txt (image : List Byte) : (s.loadImg image).txt = s.txt := rfl
@[simp] theorem State.loadImg_img (image : List Byte) : (s.loadImg image).img = image := rfl
@[simp] theorem State.loadImg_pb (image : List Byte) : (s.loadImg image).pb = s.pb := rfl
@[simp] theorem State.loadImg_subst (image : List Byte) : (s.loadImg image).subst = s.subst := rfl
@[simp] theorem State.loadImg_newId (image : List Byte) : (s.loadImg image).newId = s.newId := rfl
@[simp] theorem State.loadImg_hist (image : List Byte) : (s.loadImg image).hist = s.hist := rfl
@[simp] theorem State.loadImg_log (image : List Byte) : (s.loadImg image).log = s.log := rfl
@[simp] theorem State.loadImg_script (image : List Byte) : (s.loadImg image).script = s.script := rfl
@[simp] theorem State.loadImg_reads (image : List Byte) : (s.loadImg image).reads = s.reads := rfl
@[simp] theorem State.loadImg_pending (image : List Byte) : (s.loadImg image).pending = s.pending := rfl
@[simp] theorem State.loadImg_resetReq (image : List Byte) : (s.loadImg image).resetReq = s.resetReq := rfl

/-! ### `State.loadPb` -/

@[simp] theorem State.loadPb_sess (p : List Byte) : (s.loadPb p).sess = s.sess := rfl
@[simp] theorem State.loadPb_maxRetry (p : List Byte) : (s.loadPb p).maxRetry = s.maxRetry := rfl
@[simp] theorem State.loadPb_timeout (p : List Byte) : (s.loadPb p).timeout = s.timeout := rfl
@[simp] theorem State.loadPb_st (p : List Byte) : (s.loadPb p).st = s.st := rfl
@[simp] theorem State.loadPb_att (p : List Byte) : (s.loadPb p).att = s.att := rfl
@[simp] theorem State.loadPb_fb (p : List Byte) : (s.loadPb p).fb = s.fb := rfl
@[simp] theorem State.loadPb_exp (p : List Byte) : (s.loadPb p).exp = s.exp := rfl
@[simp] theorem State.loadPb_res (p : List Byte) : (s.loadPb p).res = s.res := rfl
@[simp] theorem State.loadPb_out (p : List Byte) : (s.loadPb p).out = s.out := rfl
@[simp] theorem State.loadPb_txt (p : List Byte) : (s.loadPb p).txt = s.txt := rfl
@[simp] theorem State.loadPb_img (p : List Byte) : (s.loadPb p).img = s.img := rfl
@[simp] theorem State.loadPb_pb (p : List Byte) : (s.loadPb p).pb = p := rfl
@[simp] theorem State.loadPb_subst (p : List Byte) : (s.loadPb p).subst = s.subst := rfl
@[simp] theorem State.loadPb_newId (p : List Byte) : (s.loadPb p).newId = s.newId := rfl
@[simp] theorem State.loadPb_hist (p : List Byte) : (s.loadPb p).hist = s.hist := rfl
@[simp] theorem State.loadPb_log (p : List Byte) : (s.loadPb p).log = s.log := rfl
@[simp] theorem State.loadPb_script (p : List Byte) : (s.loadPb p).script = s.script := rfl
@[simp] theorem State.loadPb_reads (p : List Byte) : (s.loadPb p).reads = s.reads := rfl
@[simp] theorem State.loadPb_pending (p : List Byte) : (s.loadPb p).pending = s.pending := rfl
@[simp] theorem State.loadPb_resetReq (p : List Byte) : (s.loadPb p).resetReq = s.resetReq := rfl

/-! ### `State.accept` -/

@[simp] theorem State.accept_sess : s.accept.sess = s.sess := rfl
@[simp] theorem State.accept_maxRetry : s.accept.maxRetry = s.maxRetry := rfl
@[simp] theorem State.accept_timeout : s.accept.timeout = s.timeout := rfl
@[simp] theorem State.accept_st : s.accept.st = .idle := rfl
@[simp] theorem State.accept_att : s.accept.att = 0 := rfl
@[simp] theorem State.accept_fb : s.accept.fb = [] := rfl
@[simp] theorem State.accept_exp : s.accept.exp = [] := rfl
@[simp] theorem State.accept_res : s.accept.res = .pending := rfl
@[simp] theorem State.accept_out : s.accept.out = [] := rfl
@[simp] theorem State.accept_txt : s.accept.txt = [] := rfl
@[simp] theorem State.accept_img : s.accept.img = [] := rfl
@[simp] theorem State.accept_pb : s.accept.pb = [] := rfl
@[simp] theorem State.accept_subst : s.accept.subst = s.subst := rfl
@[simp] theorem State.accept_newId : s.accept.newId = none := rfl
@[simp] theorem State.accept_hist : s.accept.hist = s.hist := rfl
@[simp] theorem State.accept_log : s.accept.log = s.log := rfl
@[simp] theorem State.accept_script : s.accept.script = s.script := rfl
@[simp] theorem State.accept_reads : s.accept.reads = s.reads := rfl
@[simp] theorem State.accept_pending : s.accept.pending = s.pending := rfl
@[simp] theorem State.accept_resetReq : s.accept.resetReq = s.resetReq := rfl

/-! ### `State.raise` -/

@[simp] theorem State.raise_sess (r : Res) : (s.raise r).sess = s.sess := rfl
@[simp] theorem State.raise_maxRetry (r : Res) : (s.raise r).maxRetry = s.maxRetry := rfl
@[simp] theorem State.raise_timeout (r : Res) : (s.raise r).timeout = s.timeout := rfl
@[simp] theorem State.raise_st (r : Res) : (s.raise r).st = s.st := rfl
@[simp] theorem State.raise_att (r : Res) : (s.raise r).att = s.att := rfl
@[simp] theorem State.raise_fb (r : Res) : (s.raise r).fb = s.fb := rfl
@[simp] theorem State.raise_exp (r : Res) : (s.raise r).exp = s.exp := rfl
@[simp] theorem State.raise_res (r : Res) : (s.raise r).res = r := rfl
@[simp] theorem State.raise_out (r : Res) : (s.raise r).out = [] := rfl
@[simp] theorem State.raise_txt (r : Res) : (s.raise r).txt = [] := rfl
@[simp] theorem State.raise_img (r : Res) : (s.raise r).img = [] := rfl
@[simp] theorem State.raise_pb (r : Res) : (s.raise r).pb = [] := rfl
@[simp] theorem State.raise_subst (r : Res) : (s.raise r).subst = s.subst := rfl
@[simp] theorem State.raise_newId (r : Res) : (s.raise r).newId = none := rfl
@[simp] theorem State.raise_hist (r : Res) : (s.raise r).hist = s.hist := rfl
@[simp] theorem State.raise_log (r : Res) : (s.raise r).log = s.log := rfl
@[simp] theorem State.raise_script (r : Res) : (s.raise r).script = s.script := rfl
@[simp] theorem State.raise_reads (r : Res) : (s.raise r).reads = s.reads := rfl
@[simp] theorem State.raise_pending (r : Res) : (s.raise r).pending = s.pending := rfl
@[simp] theorem State.raise_resetReq (r : Res) : (s.raise r).resetReq = s.resetReq := rfl

/-! ### `State.complete` -/

@[simp] theorem State.complete_sess (b : List Byte) : (s.complete b).sess = s.sess := rfl
@[simp] theorem State.complete_maxRetry (b : List Byte) : (s.complete b).maxRetry = s.maxRetry := rfl
@[simp] theorem State.complete_timeout (b : List Byte) : (s.complete b).timeout = s.timeout := rfl
@[simp] theorem State.complete_st (b : List Byte) : (s.complete b).st = s.st := rfl
@[simp] theorem State.complete_att (b : List Byte) : (s.complete b).att = s.att := rfl
@[simp] theorem State.complete_fb (b : List Byte) : (s.complete b).fb = s.fb := rfl
@[simp] theorem State.complete_exp (b : List Byte) : (s.complete b).exp = s.exp := rfl
@[simp] theorem State.complete_res (b : List Byte) : (s.complete b).res = .done := rfl
@[simp] theorem State.complete_out (b : List Byte) : (s.complete b).out = b := rfl
@[simp] theorem State.complete_txt (b : List Byte) : (s.complete b).txt = [] := rfl
@[simp] theorem State.complete_img (b : List Byte) : (s.complete b).img = [] := rfl
@[simp] theorem State.complete_pb (b : List Byte) : (s.complete b).pb = [] := rfl
@[simp] theorem State.complete_subst (b : List Byte) : (s.complete b).subst = s.subst := rfl
@[simp] theorem State.complete_newId (b : List Byte) : (s.complete b).newId = none := rfl
@[simp] theorem State.complete_hist (b : List Byte) : (s.complete b).hist = s.hist := rfl
@[simp] theorem State.complete_log (b : List Byte) : (s.complete b).log = s.log := rfl
@[simp] theorem State.complete_script (b : List Byte) : (s.complete b).script = s.script := rfl
@[simp] theorem State.complete_reads (b : List Byte) : (s.complete b).reads = s.reads := rfl
@[simp] theorem State.complete_pending (b : List Byte) : (s.complete b).pending = s.pending := rfl
@[simp] theorem State.complete_resetReq (b : List Byte) : (s.complete b).resetReq = s.resetReq := rfl

/-! ### `State.chWrite` -/

@[simp] theorem State.chWrite_sess (b : List Byte) : (s.chWrite b).sess = s.sess := rfl
@[simp] theorem State.chWrite_maxRetry (b : List Byte) : (s.chWrite b).maxRetry = s.maxRetry := rfl
@[simp] theorem State.chWrite_timeout (b : List Byte) : (s.chWrite b).timeout = s.timeout := rfl
@[simp] theorem State.chWrite_st (b : List Byte) : (s.chWrite b).st = s.st := rfl
@[simp] theorem State.chWrite_att (b : List Byte) : (s.chWrite b).att = s.att := rfl
@[simp] theorem State.chWrite_fb (b : List Byte) : (s.chWrite b).fb = s.fb := rfl
@[simp] theorem State.chWrite_exp (b : List Byte) : (s.chWrite b).exp = s.exp := rfl
@[simp] theorem State.chWrite_res (b : List Byte) : (s.chWrite b).res = s.res := rfl
@[simp] theorem State.chWrite_out (b : List Byte) : (s.chWrite b).out = s.out := rfl
@[simp] theorem State.chWrite_txt (b : List Byte) : (s.chWrite b).txt = s.txt := rfl
@[simp] theorem State.chWrite_img (b : List Byte) : (s.chWrite b).img = s.img := rfl
@[simp] theorem State.chWrite_pb (b : List Byte) : (s.chWrite b).pb = s.pb := rfl
@[simp] theorem State.chWrite_subst (b : List Byte) : (s.chWrite b).subst = s.subst := rfl
@[simp] theorem State.chWrite_newId (b : List Byte) : (s.chWrite b).newId = s.newId := rfl
@[simp] theorem State.chWrite_hist (b : List Byte) : (s.chWrite b).hist = s.hist ++ [.write b] := rfl
@[simp] theorem State.chWrite_log (b : List Byte) : (s.chWrite b).log = s.log := rfl
@[simp] theorem State.chWrite_script (b : List Byte) : (s.chWrite b).script = s.script := rfl
@[simp] theorem State.chWrite_reads (b : List Byte) : (s.chWrite b).reads = s.reads := rfl
@[simp] theorem State.chWrite_pending (b : List Byte) : (s.chWrite b).pending = s.pending := rfl
@[simp] theorem State.chWrite_resetReq (b : List Byte) : (s.chWrite b).resetReq = s.resetReq := rfl

/-! ### `State.chRead` -/

@[simp] theorem State.chRead_sess (m : Nat) : (s.chRead m).sess = s.sess := rfl
@[simp] theorem State.chRead_maxRetry (m : Nat) : (s.chRead m).maxRetry = s.maxRetry := rfl
@[simp] theorem State.chRead_timeout (m : Nat) : (s.chRead m).timeout = s.timeout := rfl
@[simp] theorem State.chRead_st (m : Nat) : (s.chRead m).st = s.st := rfl
@[simp] theorem State.chRead_att (m : Nat) : (s.chRead m).att = s.att := rfl
@[simp] theorem State.chRead_fb (m : Nat) : (s.chRead m).fb = s.fb := rfl
@[simp] theorem State.chRead_exp (m : Nat) : (s.chRead m).exp = s.exp := rfl
@[simp] theorem State.chRead_res (m : Nat) : (s.chRead m).res = s.res := rfl
@[simp] theorem State.chRead_out (m : Nat) : (s.chRead m).out = s.out := rfl
@[simp] theorem State.chRead_txt (m : Nat) : (s.chRead m).txt = s.txt := rfl
@[simp] theorem State.chRead_img (m : Nat) : (s.chRead m).img = s.img := rfl
@[simp] theorem State.chRead_pb (m : Nat) : (s.chRead m).pb = s.pb := rfl
@[simp] theorem State.chRead_subst (m : Nat) : (s.chRead m).subst = s.subst := rfl
@[simp] theorem State.chRead_newId (m : Nat) : (s.chRead m).newId = s.newId := rfl
@[simp] theorem State.chRead_hist (m : Nat) : (s.chRead m).hist = s.hist ++ [.read m s.timeout (s.chAnswer m)] := rfl
@[simp] theorem State.chRead_log (m : Nat) : (s.chRead m).log = s.log := rfl
@[simp] theorem State.chRead_script (m : Nat) : (s.chRead m).script = s.script.tail := rfl
@[simp] theorem State.chRead_reads (m : Nat) : (s.chRead m).reads = s.reads + 1 := rfl
@[simp] theorem State.chRead_pending (m : Nat) : (s.chRead m).pending = s.pending := rfl
@[simp] theorem State.chRead_resetReq (m : Nat) : (s.chRead m).resetReq = s.resetReq := rfl

/-! ### `State.chClose` -/

@[simp] theorem State.chClose_sess : s.chClose.sess = s.sess := rfl
@[simp] theorem State.chClose_maxRetry : s.chClose.maxRetry = s.maxRetry := rfl
@[simp] theorem State.chClose_timeout : s.chClose.timeout = s.timeout := rfl
@[simp] theorem State.chClose_st : s.chClose.st = s.st := rfl
@[simp] theorem State.chClose_att : s.chClose.att = s.att := rfl
@[simp] theorem State.chClose_fb : s.chClose.fb = s.fb := rfl
@[simp] theorem State.chClose_exp : s.chClose.exp = s.exp := rfl
@[simp] theorem State.chClose_res : s.chClose.res = s.res := rfl
@[simp] theorem State.chClose_out : s.chClose.out = s.out := rfl
@[simp] theorem State.chClose_txt : s.chClose.txt = s.txt := rfl
@[simp] theorem State.chClose_img : s.chClose.img = s.img := rfl
@[simp] theorem State.chClose_pb : s.chClose.pb = s.pb := rfl
@[simp] theorem State.chClose_subst : s.chClose.subst = s.subst := rfl
@[simp] theorem State.chClose_newId : s.chClose.newId = s.newId := rfl
@[simp] theorem State.chClose_hist : s.chClose.hist = s.hist ++ [.close] := rfl
@[simp] theorem State.chClose_log : s.chClose.log = s.log := rfl
@[simp] theorem State.chClose_script : s.chClose.script = s.script := rfl
@[simp] theorem State.chClose_reads : s.chClose.reads = s.reads := rfl
@[simp] theorem State.chClose_pending : s.chClose.pending = s.pending := rfl
@[simp] theorem State.chClose_resetReq : s.chClose.resetReq = s.resetReq := rfl

/-! ### `State.logEvent` -/

@[simp] theorem State.logEvent_sess (r g : List Byte) : (s.logEvent r g).sess = s.sess := rfl
@[simp] theorem State.logEvent_maxRetry (r g : List Byte) : (s.logEvent r g).maxRetry = s.maxRetry := rfl
@[simp] theorem State.logEvent_timeout (r g : List Byte) : (s.logEvent r g).timeout = s.timeout := rfl
@[simp] theorem State.logEvent_st (r g : List Byte) : (s.logEvent r g).st = s.st := rfl
@[simp] theorem State.logEvent_att (r g : List Byte) : (s.logEvent r g).att = s.att := rfl
@[simp] theorem State.logEvent_fb (r g : List Byte) : (s.logEvent r g).fb = s.fb := rfl
@[simp] theorem State.logEvent_exp (r g : List Byte) : (s.logEvent r g).exp = s.exp := rfl
@[simp] theorem State.logEvent_res (r g : List Byte) : (s.logEvent r g).res = s.res := rfl
@[simp] theorem State.logEvent_out (r g : List Byte) : (s.logEvent r g).out = s.out := rfl
@[simp] theorem State.logEvent_txt (r g : List Byte) : (s.logEvent r g).txt = s.txt := rfl
@[simp] theorem State.logEvent_img (r g : List Byte) : (s.logEvent r g).img = s.img := rfl
@[simp] theorem State.logEvent_pb (r g : List Byte) : (s.logEvent r g).pb = s.pb := rfl
@[simp] theorem State.logEvent_subst (r g : List Byte) : (s.logEvent r g).subst = s.subst := rfl
@[simp] theorem State.logEvent_newId (r g : List Byte) : (s.logEvent r g).newId = s.newId := rfl
@[simp] theorem State.logEvent_hist (r g : List Byte) : (s.logEvent r g).hist = s.hist := rfl
@[simp] theorem State.logEvent_log (r g : List Byte) : (s.logEvent r g).log = s.log ++ [(r, g)] := rfl
@[simp] theorem State.logEvent_script (r g : List Byte) : (s.logEvent r g).script = s.script := rfl
@[simp] theorem State.logEvent_reads (r g : List Byte) : (s.logEvent r g).reads = s.reads := rfl
@[simp] theorem State.logEvent_pending (r g : List Byte) : (s.logEvent r g).pending = s.pending := rfl
@[simp] theorem State.logEvent_resetReq (r g : List Byte) : (s.logEvent r g).resetReq = s.resetReq := rfl

/-! ### `State.startSend` -/

@[simp] theorem State.startSend_sess (f x : List Byte) : (s.startSend f x).sess = s.sess := rfl
@[simp] theorem State.startSend_maxRetry (f x : List Byte) : (s.startSend f x).maxRetry = s.maxRetry := rfl
@[simp] theorem State.startSend_timeout (f x : List Byte) : (s.startSend f x).timeout = s.timeout := rfl
@[simp] theorem State.startSend_st (f x : List Byte) : (s.startSend f x).st = .sending := rfl
@[simp] theorem State.startSend_att (f x : List Byte) : (s.startSend f x).att = 0 := rfl
@[simp] theorem State.startSend_fb (f x : List Byte) : (s.startSend f x).fb = f := rfl
@[simp] theorem State.startSend_exp (f x : List Byte) : (s.startSend f x).exp = x := rfl
@[simp] theorem State.startSend_res (f x : List Byte) : (s.startSend f x).res = s.res := rfl
@[simp] theorem State.startSend_out (f x : List Byte) : (s.startSend f x).out = s.out := rfl
@[simp] theorem State.startSend_txt (f x : List Byte) : (s.startSend f x).txt = s.txt := rfl
@[simp] theorem State.startSend_img (f x : List Byte) : (s.startSend f x).img = s.img := rfl
@[simp] theorem State.startSend_pb (f x : List Byte) : (s.startSend f x).pb = s.pb := rfl
@[simp] theorem State.startSend_subst (f x : List Byte) : (s.startSend f x).subst = s.subst := rfl
@[simp] theorem State.startSend_newId (f x : List Byte) : (s.startSend f x).newId = s.newId := rfl
@[simp] theorem State.startSend_hist (f x : List Byte) : (s.startSend f x).hist = s.hist := rfl
@[simp] theorem State.startSend_log (f x : List Byte) : (s.startSend f x).log = s.log := rfl
@[simp] theorem State.startSend_script (f x : List Byte) : (s.startSend f x).script = s.script := rfl
@[simp] theorem State.startSend_reads (f x : List Byte) : (s.startSend f x).reads = s.reads := rfl
@[simp] theorem State.startSend_pending (f x : List Byte) : (s.startSend f x).pending = s.pending := rfl
@[simp] theorem State.startSend_resetReq (f x : List Byte) : (s.startSend f x).resetReq = s.resetReq := rfl

/-! ### `State.holdNewId` -/

@[simp] theorem State.holdNewId_sess (n : Nat) : (s.holdNewId n).sess = s.sess := rfl
@[simp] theorem State.holdNewId_maxRetry (n : Nat) : (s.holdNewId n).maxRetry = s.maxRetry := rfl
@[simp] theorem State.holdNewId_timeout (n : Nat) : (s.holdNewId n).timeout = s.timeout := rfl
@[simp] theorem State.holdNewId_st (n : Nat) : (s.holdNewId n).st = s.st := rfl
@[simp] theorem State.holdNewId_att (n : Nat) : (s.holdNewId n).att = s.att := rfl
@[simp] theorem State.holdNewId_fb (n : Nat) : (s.holdNewId n).fb = s.fb := rfl
@[simp] theorem State.holdNewId_exp (n : Nat) : (s.holdNewId n).exp = s.exp := rfl
@[simp] theorem State.holdNewId_res (n : Nat) : (s.holdNewId n).res = s.res := rfl
@[simp] theorem State.holdNewId_out (n : Nat) : (s.holdNewId n).out = s.out := rfl
@[simp] theorem State.holdNewId_txt (n : Nat) : (s.holdNewId n).txt = s.txt := rfl
@[simp] theorem State.holdNewId_img (n : Nat) : (s.holdNewId n).img = s.img := rfl
@[simp] theorem State.holdNewId_pb (n : Nat) : (s.holdNewId n).pb = s.pb := rfl
@[simp] theorem State.holdNewId_subst (n : Nat) : (s.holdNewId n).subst = s.subst := rfl
@[simp] theorem State.holdNewId_newId (n : Nat) : (s.holdNewId n).newId = some n := rfl
@[simp] theorem State.holdNewId_hist (n : Nat) : (s.holdNewId n).hist = s.hist := rfl
@[simp] theorem State.holdNewId_log (n : Nat) : (s.holdNewId n).log = s.log := rfl
@[simp] theorem State.holdNewId_script (n : Nat) : (s.holdNewId n).script = s.script := rfl
@[simp] theorem State.holdNewId_reads (n : Nat) : (s.holdNewId n).reads = s.reads := rfl
@[simp] theorem State.holdNewId_pending (n : Nat) : (s.holdNewId n).pending = s.pending := rfl
@[simp] theorem State.holdNewId_resetReq (n : Nat) : (s.holdNewId n).resetReq = s.resetReq := rfl

/-! ### `State.succeed` -/

@[simp] theorem State.succeed_sess : s.succeed.sess = s.confirmedSess := rfl
@[simp] theorem State.succeed_maxRetry : s.succeed.maxRetry = s.maxRetry := rfl
@[simp] theorem State.succeed_timeout : s.succeed.timeout = s.timeout := rfl
@[simp] theorem State.succeed_st : s.succeed.st = .success := rfl
@[simp] theorem State.succeed_att : s.succeed.att = s.att := rfl
@[simp] theorem State.succeed_fb : s.succeed.fb = s.fb := rfl
@[simp] theorem State.succeed_exp : s.succeed.exp = s.exp := rfl
@[simp] theorem State.succeed_res : s.succeed.res = .acked s.att := rfl
@[simp] theorem State.succeed_out : s.succeed.out = s.out := rfl
@[simp] theorem State.succeed_txt : s.succeed.txt = [] := rfl
@[simp] theorem State.succeed_img : s.succeed.img = [] := rfl
@[simp] theorem State.succeed_pb : s.succeed.pb = [] := rfl
@[simp] theorem State.succeed_subst : s.succeed.subst = s.subst := rfl
@[simp] theorem State.succeed_newId : s.succeed.newId = none := rfl
@[simp] theorem State.succeed_hist : s.succeed.hist = s.hist := rfl
@[simp] theorem State.succeed_log : s.succeed.log = s.log := rfl
@[simp] theorem State.succeed_script : s.succeed.script = s.script := rfl
@[simp] theorem State.succeed_reads : s.succeed.reads = s.reads := rfl
@[simp] theorem State.succeed_pending : s.succeed.pending = s.pending := rfl
@[simp] theorem State.succeed_resetReq : s.succeed.resetReq = s.resetReq := rfl

/-! ### `State.fail` -/

@[simp] theorem State.fail_sess : s.fail.sess = s.sess := rfl
@[simp] theorem State.fail_maxRetry : s.fail.maxRetry = s.maxRetry := rfl
@[simp] theorem State.fail_timeout : s.fail.timeout = s.timeout := rfl
@[simp] theorem State.fail_st : s.fail.st = .failed := rfl
@[simp] theorem State.fail_att : s.fail.att = s.att := rfl
@[simp] theorem State.fail_fb : s.fail.fb = s.fb := rfl
@[simp] theorem State.fail_exp : s.fail.exp = s.exp := rfl
@[simp] theorem State.fail_res : s.fail.res = .noAck s.att := rfl
@[simp] theorem State.fail_out : s.fail.out = s.out := rfl
@[simp] theorem State.fail_txt : s.fail.txt = [] := rfl
@[simp] theorem State.fail_img : s.fail.img = [] := rfl
@[simp] theorem State.fail_pb : s.fail.pb = [] := rfl
@[simp] theorem State.fail_subst : s.fail.subst = s.subst := rfl
@[simp] theorem State.fail_newId : s.fail.newId = none := rfl
@[simp] theorem State.fail_hist : s.fail.hist = s.hist := rfl
@[simp] theorem State.fail_log : s.fail.log = s.log := rfl
@[simp] theorem State.fail_script : s.fail.script = s.script := rfl
@[simp] theorem State.fail_reads : s.fail.reads = s.reads := rfl
@[simp] theorem State.fail_pending : s.fail.pending = s.pending := rfl
@[simp] theorem State.fail_resetReq : s.fail.resetReq = s.resetReq := rfl

/-! ### `State.takeRecord` -/

@[simp] theorem State.takeRecord_sess (extra : List Byte) : (s.takeRecord extra).sess = s.sess := rfl
@[simp] theorem State.takeRecord_maxRetry (extra : List Byte) : (s.takeRecord extra).maxRetry = s.maxRetry := rfl
@[simp] theorem State.takeRecord_timeout (extra : List Byte) : (s.takeRecord extra).timeout = s.timeout := rfl
@[simp] theorem State.takeRecord_st (extra : List Byte) : (s.takeRecord extra).st = s.st := rfl
@[simp] theorem State.takeRecord_att (extra : List Byte) : (s.takeRecord extra).att = s.att := rfl
@[simp] theorem State.takeRecord_fb (extra : List Byte) : (s.takeRecord extra).fb = s.fb := rfl
@[simp] theorem State.takeRecord_exp (extra : List Byte) : (s.takeRecord extra).exp = s.exp := rfl
@[simp] theorem State.takeRecord_res (extra : List Byte) : (s.takeRecord extra).res = s.res := rfl
@[simp] theorem State.takeRecord_out (extra : List Byte) : (s.takeRecord extra).out = s.out := rfl
@[simp] theorem State.takeRecord_txt (extra : List Byte) : (s.takeRecord extra).txt = s.txt := rfl
@[simp] theorem State.takeRecord_img (extra : List Byte) : (s.takeRecord extra).img = s.img := rfl
@[simp] theorem State.takeRecord_pb (extra : List Byte) : (s.takeRecord extra).pb = s.pb := rfl
@[simp] theorem State.takeRecord_subst (extra : List Byte) : (s.takeRecord extra).subst = s.subst := rfl
@[simp] theorem State.takeRecord_newId (extra : List Byte) : (s.takeRecord extra).newId = s.newId := rfl
@[simp] theorem State.takeRecord_hist (extra : List Byte) : (s.takeRecord extra).hist = s.hist := rfl
@[simp] theorem State.takeRecord_log (extra : List Byte) : (s.takeRecord extra).log = s.log := rfl
@[simp] theorem State.takeRecord_script (extra : List Byte) : (s.takeRecord extra).script = s.script := rfl
@[simp] theorem State.takeRecord_reads (extra : List Byte) : (s.takeRecord extra).reads = s.reads := rfl
@[simp] theorem State.takeRecord_pending (extra : List Byte) : (s.takeRecord extra).pending = leftover extra ++ s.pending.tail := rfl
@[simp] theorem State.takeRecord_resetReq (extra : List Byte) : (s.takeRecord extra).resetReq = s.resetReq := rfl

/-! ### `State.present` -/

@[simp] theorem State.present_sess (b : List Byte) : (s.present b).sess = s.sess := rfl
@[simp] theorem State.present_maxRetry (b : List Byte) : (s.present b).maxRetry = s.maxRetry := rfl
@[simp] theorem State.present_timeout (b : List Byte) : (s.present b).timeout = s.timeout := rfl
@[simp] theorem State.present_st (b : List Byte) : (s.present b).st = if s.portReady then s.st else .idle := rfl
@[simp] theorem State.present_att (b : List Byte) : (s.present b).att = s.att := rfl
@[simp] theorem State.present_fb (b : List Byte) : (s.present b).fb = s.fb := rfl
@[simp] theorem State.present_exp (b : List Byte) : (s.present b).exp = s.exp := rfl
@[simp] theorem State.present_res (b : List Byte) : (s.present b).res = s.res := rfl
@[simp] theorem State.present_out (b : List Byte) : (s.present b).out = s.out := rfl
@[simp] theorem State.present_txt (b : List Byte) : (s.present b).txt = s.txt := rfl
@[simp] theorem State.present_img (b : List Byte) : (s.present b).img = s.img := rfl
@[simp] theorem State.present_pb (b : List Byte) : (s.present b).pb = s.pb := rfl
@[simp] theorem State.present_subst (b : List Byte) : (s.present b).subst = s.subst := rfl
@[simp] theorem State.present_newId (b : List Byte) : (s.present b).newId = s.newId := rfl
@[simp] theorem State.present_hist (b : List Byte) : (s.present b).hist = s.hist := rfl
@[simp] theorem State.present_log (b : List Byte) : (s.present b).log = s.log := rfl
@[simp] theorem State.present_script (b : List Byte) : (s.present b).script = s.script := rfl
@[simp] theorem State.present_reads (b : List Byte) : (s.present b).reads = s.reads := rfl
@[simp] theorem State.present_pending (b : List Byte) : (s.present b).pending = b :: s.pending := rfl
@[simp] theorem State.present_resetReq (b : List Byte) : (s.present b).resetReq = false := rfl

/-! ### `State.offer` -/

@[simp] theorem State.offer_sess (b : List Byte) : (s.offer b).sess = s.sess := rfl
@[simp] theorem State.offer_maxRetry (b : List Byte) : (s.offer b).maxRetry = s.maxRetry := rfl
@[simp] theorem State.offer_timeout (b : List Byte) : (s.offer b).timeout = s.timeout := rfl
@[simp] theorem State.offer_st (b : List Byte) : (s.offer b).st = s.st := rfl
@[simp] theorem State.offer_att (b : List Byte) : (s.offer b).att = s.att := rfl
@[simp] theorem State.offer_fb (b : List Byte) : (s.offer b).fb = s.fb := rfl
@[simp] theorem State.offer_exp (b : List Byte) : (s.offer b).exp = s.exp := rfl
@[simp] theorem State.offer_res (b : List Byte) : (s.offer b).res = s.res := rfl
@[simp] theorem State.offer_out (b : List Byte) : (s.offer b).out = s.out := rfl
@[simp] theorem State.offer_txt (b : List Byte) : (s.offer b).txt = s.txt := rfl
@[simp] theorem State.offer_img (b : List Byte) : (s.offer b).img = s.img := rfl
@[simp] theorem State.offer_pb (b : List Byte) : (s.offer b).pb = s.pb := rfl
@[simp] theorem State.offer_subst (b : List Byte) : (s.offer b).subst = s.subst := rfl
@[simp] theorem State.offer_newId (b : List Byte) : (s.offer b).newId = s.newId := rfl
@[simp] theorem State.offer_hist (b : List Byte) : (s.offer b).hist = s.hist := rfl
@[simp] theorem State.offer_log (b : List Byte) : (s.offer b).log = s.log := rfl
@[simp] theorem State.offer_script (b : List Byte) : (s.offer b).script = s.script := rfl
@[simp] theorem State.offer_reads (b : List Byte) : (s.offer b).reads = s.reads := rfl
@[simp] theorem State.offer_pending (b : List Byte) : (s.offer b).pending = s.pending ++ [b] := rfl
@[simp] theorem State.offer_resetReq (b : List Byte) : (s.offer b).resetReq = s.resetReq := rfl

/-! ### `State.assertReset` -/

@[simp] theorem State.assertReset_sess : s.assertReset.sess = s.sess := rfl
@[simp] theorem State.assertReset_maxRetry : s.assertReset.maxRetry = s.maxRetry := rfl
@[simp] theorem State.assertReset_timeout : s.assertReset.timeout = s.timeout := rfl
@[simp] theorem State.assertReset_st : s.assertReset.st = s.st := rfl
@[simp] theorem State.assertReset_att : s.assertReset.att = s.att := rfl
@[simp] theorem State.assertReset_fb : s.assertReset.fb = s.fb := rfl
@[simp] theorem State.assertReset_exp : s.assertReset.exp = s.exp := rfl
@[simp] theorem State.assertReset_res : s.assertReset.res = s.res := rfl
@[simp] theorem State.assertReset_out : s.assertReset.out = s.out := rfl
@[simp] theorem State.assertReset_txt : s.assertReset.txt = s.txt := rfl
@[simp] theorem State.assertReset_img : s.assertReset.img = s.img := rfl
@[simp] theorem State.assertReset_pb : s.assertReset.pb = s.pb := rfl
@[simp] theorem State.assertReset_subst : s.assertReset.subst = s.subst := rfl
@[simp] theorem State.assertReset_newId : s.assertReset.newId = s.newId := rfl
@[simp] theorem State.assertReset_hist : s.assertReset.hist = s.hist := rfl
@[simp] theorem State.assertReset_log : s.assertReset.log = s.log := rfl
@[simp] theorem State.assertReset_script : s.assertReset.script = s.script := rfl
@[simp] theorem State.assertReset_reads : s.assertReset.reads = s.reads := rfl
@[simp] theorem State.assertReset_pending : s.assertReset.pending = s.pending := rfl
@[simp] theorem State.assertReset_resetReq : s.assertReset.resetReq = true := rfl

/-! ### `State.answerWith` -/

@[simp] theorem State.answerWith_sess (a : List (List Byte)) : (s.answerWith a).sess = s.sess := rfl
@[simp] theorem State.answerWith_maxRetry (a : List (List Byte)) : (s.answerWith a).maxRetry = s.maxRetry := rfl
@[simp] theorem State.answerWith_timeout (a : List (List Byte)) : (s.answerWith a).timeout = s.timeout := rfl
@[simp] theorem State.answerWith_st (a : List (List Byte)) : (s.answerWith a).st = s.st := rfl
@[simp] theorem State.answerWith_att (a : List (List Byte)) : (s.answerWith a).att = s.att := rfl
@[simp] theorem State.answerWith_fb (a : List (List Byte)) : (s.answerWith a).fb = s.fb := rfl
@[simp] theorem State.answerWith_exp (a : List (List Byte)) : (s.answerWith a).exp = s.exp := rfl
@[simp] theorem State.answerWith_res (a : List (List Byte)) : (s.answerWith a).res = s.res := rfl
@[simp] theorem State.answerWith_out (a : List (List Byte)) : (s.answerWith a).out = s.out := rfl
@[simp] theorem State.answerWith_txt (a : List (List Byte)) : (s.answerWith a).txt = s.txt := rfl
@[simp] theorem State.answerWith_img (a : List (List Byte)) : (s.answerWith a).img = s.img := rfl
@[simp] theorem State.answerWith_pb (a : List (List Byte)) : (s.answerWith a).pb = s.pb := rfl
@[simp] theorem State.answerWith_subst (a : List (List Byte)) : (s.answerWith a).subst = s.subst := rfl
@[simp] theorem State.answerWith_newId (a : List (List Byte)) : (s.answerWith a).newId = s.newId := rfl
@[simp] theorem State.answerWith_hist (a : List (List Byte)) : (s.answerWith a).hist = s.hist := rfl
@[simp] theorem State.answerWith_log (a : List (List Byte)) : (s.answerWith a).log = s.log := rfl
@[simp] theorem State.answerWith_script (a : List (List Byte)) : (s.answerWith a).script = a := rfl
@[simp] theorem State.answerWith_reads (a : List (List Byte)) : (s.answerWith a).reads = s.reads := rfl
@[simp] theorem State.answerWith_pending (a : List (List Byte)) : (s.answerWith a).pending = s.pending := rfl
@[simp] theorem State.answerWith_resetReq (a : List (List Byte)) : (s.answerWith a).resetReq = s.resetReq := rfl

/-! ### `State.resetRegisters` -/

@[simp] theorem State.resetRegisters_sess : s.resetRegisters.sess = .closed := rfl
@[simp] theorem State.resetRegisters_maxRetry : s.resetRegisters.maxRetry = 3 := rfl
@[simp] theorem State.resetRegisters_timeout : s.resetRegisters.timeout = Config.timeoutDefault := rfl
@[simp] theorem State.resetRegisters_st : s.resetRegisters.st = .idle := rfl
@[simp] theorem State.resetRegisters_att : s.resetRegisters.att = 0 := rfl
@[simp] theorem State.resetRegisters_fb : s.resetRegisters.fb = [] := rfl
@[simp] theorem State.resetRegisters_exp : s.resetRegisters.exp = [] := rfl
@[simp] theorem State.resetRegisters_res : s.resetRegisters.res = ⟨.none, .zero, .none⟩ := rfl
@[simp] theorem State.resetRegisters_out : s.resetRegisters.out = [] := rfl
@[simp] theorem State.resetRegisters_txt : s.resetRegisters.txt = [] := rfl
@[simp] theorem State.resetRegisters_img : s.resetRegisters.img = [] := rfl
@[simp] theorem State.resetRegisters_pb : s.resetRegisters.pb = [] := rfl
@[simp] theorem State.resetRegisters_subst : s.resetRegisters.subst = s.subst := rfl
@[simp] theorem State.resetRegisters_newId : s.resetRegisters.newId = none := rfl
@[simp] theorem State.resetRegisters_hist : s.resetRegisters.hist = s.hist := rfl
@[simp] theorem State.resetRegisters_log : s.resetRegisters.log = s.log := rfl
@[simp] theorem State.resetRegisters_script : s.resetRegisters.script = s.script := rfl
@[simp] theorem State.resetRegisters_reads : s.resetRegisters.reads = s.reads := rfl
@[simp] theorem State.resetRegisters_pending : s.resetRegisters.pending = s.pending := rfl
@[simp] theorem State.resetRegisters_resetReq : s.resetRegisters.resetReq = false := rfl

end Sys2Proof.Machine
end

