-- ==== Sys2Proof/Laws/Ops.lean ====
section
/-! SUPPORT. What each shared operation can do, said once: acceptance, delivery, the session check, operand
checks, the channel read, and the cases of a step. -/

namespace Sys2Proof.Machine

/-! ### Acceptance -/

theorem whenReady_ready {s : State} (h : s.portReady = true) (body : State → State) :
    whenReady s body = .next (body s.accept) := by simp [whenReady, h]

theorem whenReady_busy {s : State} (h : s.portReady = false) (body : State → State) :
    whenReady s body = .next s := by simp [whenReady, h]

/-- An operation with a body answers a next state, in whatever state it is presented. -/
theorem whenReady_next (s : State) (body : State → State) :
    whenReady s body = .next (if s.portReady then body s.accept else s) := rfl

theorem portReady_iff (s : State) :
    s.portReady = true ↔ s.st = .idle ∨ s.st = .success ∨ s.st = .failed := by
  unfold State.portReady; cases s.st <;> simp

theorem portBusy_iff (s : State) :
    s.portReady = false ↔ s.st = .sending ∨ s.st = .awaitingAck ∨ s.st = .retrying := by
  unfold State.portReady; cases s.st <;> simp

@[simp] theorem accept_portReady (s : State) : s.accept.portReady = true := rfl

@[simp] theorem deliver_ok (b : List Byte) (s : State) : s.deliver (.ok b) = s.complete b := rfl

@[simp] theorem deliver_error (r : Res) (s : State) : s.deliver (.error r) = s.raise r := rfl

@[simp] theorem validated_none {α : Type} (v : α) : validated none v = .ok v := rfl

@[simp] theorem validated_some {α : Type} (r : Res) (v : α) : validated (some r) v = .error r := rfl

/-! ### The session check -/

theorem withDevid_opened {s : State} {d : Nat} (h : s.sess = .opened d)
    (body : Nat → State → State) : s.withDevid body = body d s := by simp [State.withDevid, h]

theorem withDevid_closed {s : State} (h : s.sess = .closed) (body : Nat → State → State) :
    s.withDevid body = s.raise .closed := by simp [State.withDevid, h]

theorem devid_eq_some_iff {s : State} {d : Nat} : s.devid = some d ↔ s.sess = .opened d := by
  unfold State.devid; cases s.sess <;> simp

theorem devid_eq_none_iff {s : State} : s.devid = none ↔ s.sess = .closed := by
  unfold State.devid; cases s.sess <;> simp

/-! ### Operand checks -/

theorem within_eq_none_iff {lo hi v : Nat} {c : Cause} {i : Info} :
    within lo hi v c i = none ↔ lo ≤ v ∧ v ≤ hi := by
  unfold within; split <;> simp_all

theorem within_eq_some_iff {lo hi v : Nat} {c : Cause} {i : Info} {r : Res} :
    within lo hi v c i = some r ↔ ¬ (lo ≤ v ∧ v ≤ hi) ∧ r = .invalid c i := by
  unfold within
  split
  · simp_all
  · rename_i h; simp [h, eq_comm]

theorem firstViolation_append (a b : List (Option Res)) :
    firstViolation (a ++ b) = (firstViolation a).or (firstViolation b) := by
  induction a with
  | nil => simp [firstViolation]
  | cons x xs ih => cases x <;> simp [firstViolation, ih]

theorem firstViolation_eq_none_iff (l : List (Option Res)) :
    firstViolation l = none ↔ ∀ v ∈ l, v = none := by
  induction l with
  | nil => simp [firstViolation]
  | cons x xs ih => cases x <;> simp [firstViolation, ih]

/-! ### The channel -/

/-- A read never returns more than it asks (`20_memory.md` R34), whatever the channel answers. -/
theorem chAnswer_length_le (m : Nat) (s : State) : (s.chAnswer m).length ≤ m := by
  unfold State.chAnswer; split <;> simp [List.length_take]

theorem chAnswer_of_script {s : State} {r : List Byte} {rest : List (List Byte)}
    (h : s.script = r :: rest) (m : Nat) : s.chAnswer m = r.take m := by
  simp [State.chAnswer, h]

/-! ### The step -/

theorem step_reset {s : State} (h : s.resetReq = true) : step s = resetInput s := by
  simp [step, h]

theorem step_busy {s : State} (hr : s.resetReq = false) (h : s.portReady = false) :
    step s = .next (transportStep s) := by simp [step, hr, h]

theorem step_operation {s : State} {r : List Byte} {later : List (List Byte)} {i : Instr}
    (hr : s.resetReq = false) (h : s.portReady = true) (hp : s.pending = r :: later)
    (hd : decode r = .ok i) : step s = exec i (s.takeRecord []) := by
  simp [step, hr, h, fetch, hp, hd]

theorem step_extra {s : State} {r : List Byte} {later : List (List Byte)} {i : Instr}
    {extra : List Byte} (hr : s.resetReq = false) (h : s.portReady = true)
    (hp : s.pending = r :: later) (hd : decode r = .error (.trailing i extra)) :
    step s = exec i (s.takeRecord extra) := by
  simp [step, hr, h, fetch, hp, hd]

/-- Everything a step can do when it answers a next state. -/
theorem step_cases {s t : State} (h : step s = .next t) :
    (s.resetReq = true ∧ s.portReady = true ∧ t = s.resetRegisters) ∨
    (s.resetReq = false ∧ s.portReady = false ∧ t = transportStep s) ∨
    (s.resetReq = false ∧ s.portReady = true ∧ t = s) ∨
    (s.resetReq = false ∧ s.portReady = true ∧
      ∃ op, execIllegal op (s.takeRecord []) = .next t) ∨
    (s.resetReq = false ∧ s.portReady = true ∧
      ∃ r later i extra, s.pending = r :: later ∧ Offers r i ∧
        exec i (s.takeRecord extra) = .next t) := by
  unfold step at h
  split at h
  · rename_i hr
    refine .inl ⟨hr, ?_⟩
    unfold resetInput at h
    split at h
    · rename_i hp; exact ⟨hp, by simpa using h.symm⟩
    · cases h
  · rename_i hr
    have hr : s.resetReq = false := by simpa using hr
    split at h
    · rename_i hp
      right; right
      split at h
      · exact .inl ⟨hr, hp, by simpa using h.symm⟩
      · rename_i op _; exact .inr (.inl ⟨hr, hp, op, h⟩)
      · rename_i i extra hf
        refine .inr (.inr ⟨hr, hp, ?_⟩)
        unfold fetch at hf
        split at hf
        · cases hf
        · rename_i r later hpend
          split at hf <;> simp only [reduceCtorEq, Fetched.operation.injEq] at hf
          · rename_i hd; obtain ⟨rfl, rfl⟩ := hf; exact ⟨r, later, _, _, hpend, .inl hd, h⟩
          · rename_i hd; obtain ⟨rfl, rfl⟩ := hf; exact ⟨r, later, _, _, hpend, .inr ⟨_, hd⟩, h⟩
    · rename_i hp
      exact .inr (.inl ⟨hr, by simpa using hp, by simpa using h.symm⟩)

/-! ### Runs -/

theorem steps_zero (s : State) : steps 0 s = .next s := rfl

theorem steps_succ {k : Nat} {s t : State} (h : step s = .next t) : steps (k + 1) s = steps k t := by
  simp [steps, h]

/-- A run goes on from where a shorter run ended. -/
theorem steps_add {m n : Nat} : ∀ {s t : State}, steps m s = .next t → steps (m + n) s = steps n t := by
  induction m with
  | zero => intro s t h; cases h; rw [Nat.zero_add]
  | succ m ih =>
    intro s t h
    rw [Nat.add_right_comm]
    cases hs : step s with
    | next u => rw [steps_succ hs] at h ⊢; exact ih h
    | fault r => simp [steps, hs] at h
    | refused r => simp [steps, hs] at h

/-- `steps` is the host's run of this machine. -/
theorem core_run_eq_steps (k : Nat) : ∀ s : State, Sys2Proof.core.run k s = steps k s := by
  induction k with
  | zero => intro s; rfl
  | succ k ih =>
    intro s
    cases hs : step s with
    | next t =>
      have hc : Sys2Proof.core.step s = .next t := hs
      simp only [Host.Core.run, steps, hs, hc]
      exact ih t
    | fault r =>
      have hc : Sys2Proof.core.step s = .fault r := hs
      simp only [Host.Core.run, steps, hs, hc]
      rfl
    | refused r =>
      have hc : Sys2Proof.core.step s = .refused r := hs
      simp only [Host.Core.run, steps, hs, hc]
      rfl

theorem transportStep_sending {s : State} (h : s.st = .sending) :
    transportStep s = sendingStep s := by simp [transportStep, h]

theorem transportStep_awaiting {s : State} (h : s.st = .awaitingAck) :
    transportStep s = awaitStep s := by simp [transportStep, h]

theorem transportStep_retrying {s : State} (h : s.st = .retrying) :
    transportStep s = retryStep s := by simp [transportStep, h]

end Sys2Proof.Machine
end

