-- ==== Sys2Proof/Laws/Operands.lean ====
section
/-! SUPPORT. The operand checks of the meanings and the operand domains of the claims are the same: each check
is the first violation among the listed fields. -/

namespace Sys2Proof.Machine

/-- The check of one field. -/
def fieldCheck (f : Field) : Option Res := within f.lo f.hi f.value f.cause f.info

theorem fieldCheck_eq_none_iff (f : Field) : fieldCheck f = none ↔ InDomain f := within_eq_none_iff

theorem firstViolation_fields_eq_none_iff (l : List Field) :
    firstViolation (l.map fieldCheck) = none ↔ AllInDomain l := by
  simp [firstViolation_eq_none_iff, fieldCheck_eq_none_iff, AllInDomain]

theorem firstViolation_fields_eq_some_iff (l : List Field) (r : Res) :
    firstViolation (l.map fieldCheck) = some r ↔ FirstViolation l r := by
  induction l with
  | nil => simp [firstViolation, FirstViolation]
  | cons f fs ih =>
    by_cases hf : InDomain f
    · have h0 : fieldCheck f = none := (fieldCheck_eq_none_iff f).2 hf
      simp only [List.map_cons, h0, firstViolation, ih]
      constructor
      · rintro ⟨pre, g, post, rfl, hp, hg, hr⟩
        exact ⟨f :: pre, g, post, rfl, List.forall_mem_cons.2 ⟨hf, hp⟩, hg, hr⟩
      · rintro ⟨pre, g, post, he, hp, hg, hr⟩
        cases pre with
        | nil => simp at he; exact absurd (he.1 ▸ hf) hg
        | cons a pre =>
          simp at he
          obtain ⟨rfl, rfl⟩ := he
          exact ⟨pre, g, post, rfl, fun x hx => hp x (by simp [hx]), hg, hr⟩
    · have h1 : fieldCheck f = some (.invalid f.cause f.info) := by
        simp [fieldCheck, within_eq_some_iff, hf]
      simp only [List.map_cons, h1, firstViolation, Option.some.injEq]
      constructor
      · rintro rfl
        exact ⟨[], f, fs, rfl, by simp [AllInDomain], hf, rfl⟩
      · rintro ⟨pre, g, post, he, hp, hg, hr⟩
        cases pre with
        | nil => simp at he; rw [hr, ← he.1]; rfl
        | cons a pre =>
          simp at he
          exact absurd (he.1 ▸ hp a (by simp)) hf

theorem checkClock_eq (t : ClockTime) :
    checkClock t = firstViolation ((clockFields t).map fieldCheck) := rfl

theorem checkDateTime_eq (pos : Nat) (t : DateTime) :
    checkDateTime pos t = firstViolation ((dateTimeFields pos t).map fieldCheck) := rfl

/-- A check of elements one by one is the first violation among them. -/
theorem elementFields_cons (lo hi : Nat) (c : Cause) (k : Nat) (b : Byte) (bs : List Byte) :
    (List.mapIdx (fun j x => (⟨x.toNat, lo, hi, c, .place (k + j) x.toNat⟩ : Field)) (b :: bs)) =
      ⟨b.toNat, lo, hi, c, .place k b.toNat⟩ ::
        List.mapIdx (fun j x => (⟨x.toNat, lo, hi, c, .place (k + 1 + j) x.toNat⟩ : Field)) bs := by
  rw [List.mapIdx_cons]
  congr 1
  apply congrArg (fun f => List.mapIdx f bs)
  funext j x
  rw [show k + (j + 1) = k + 1 + j by omega]

theorem checkPageLetters_eq (bs : List Byte) : ∀ k,
    checkPageLetters k bs =
      firstViolation ((List.mapIdx (fun j x =>
        (⟨x.toNat, 0x41, 0x45, .vPage, .place (k + j) x.toNat⟩ : Field)) bs).map fieldCheck) := by
  induction bs with
  | nil => intro k; rfl
  | cons b bs ih =>
    intro k
    rw [elementFields_cons, List.map_cons]
    unfold checkPageLetters
    rw [ih]
    show _ = firstViolation (within 0x41 0x45 b.toNat .vPage (.place k b.toNat) :: _)
    cases within 0x41 0x45 b.toNat .vPage (.place k b.toNat) <;> rfl

theorem checkSymbols_eq (bs : List Byte) : ∀ k,
    checkSymbols k bs =
      firstViolation ((List.mapIdx (fun j x =>
        (⟨x.toNat, 0, 3, .vImgSym, .place (k + j) x.toNat⟩ : Field)) bs).map fieldCheck) := by
  induction bs with
  | nil => intro k; rfl
  | cons b bs ih =>
    intro k
    rw [elementFields_cons, List.map_cons]
    unfold checkSymbols
    rw [ih]
    show _ = firstViolation (within 0 3 b.toNat .vImgSym (.place k b.toNat) :: _)
    cases within 0 3 b.toNat .vImgSym (.place k b.toNat) <;> rfl

/-- A check followed by others is a check on the joined lists. -/
theorem firstViolation_cons_or (v : Option Res) (vs : List (Option Res)) :
    firstViolation (v :: vs) = v.or (firstViolation vs) := by cases v <;> rfl

theorem checkPages_eq (pages : List Byte) :
    checkPages pages =
      firstViolation (((⟨pages.length, 0, 31, .vPageSchedLen, .value pages.length⟩ : Field) ::
        elementFields 0x41 0x45 .vPage pages).map fieldCheck) := by
  rw [List.map_cons, firstViolation_cons_or]
  unfold checkPages
  rw [firstViolation_cons_or, firstViolation_cons_or, checkPageLetters_eq]
  simp [firstViolation, fieldCheck, elementFields]

theorem checkImage_eq (image : List Byte) :
    checkImage image = firstViolation ((imageFields image).map fieldCheck) := by
  unfold imageFields checkImage
  rw [List.map_cons, firstViolation_cons_or, firstViolation_cons_or, firstViolation_cons_or,
    checkSymbols_eq]
  simp [firstViolation, fieldCheck, elementFields]

theorem checkPlt_eq (sc : Byte) (a b : DateTime) (pages : List Byte) :
    checkPlt sc a b pages = firstViolation ((scheduleFields sc a b pages).map fieldCheck) := by
  unfold scheduleFields checkPlt
  simp only [List.map_append, firstViolation_append, firstViolation_cons_or, checkDateTime_eq,
    checkPages_eq, List.map_cons, List.map_nil, firstViolation, Option.or_none, Option.or_assoc]
  rfl

theorem checkPlg_eq (pg : Byte) (bl : Nat) (image : List Byte) :
    checkPlg pg bl image = firstViolation ((graphicsFields pg bl image).map fieldCheck) := by
  unfold graphicsFields checkPlg
  simp only [List.map_append, firstViolation_append, firstViolation_cons_or, checkImage_eq,
    List.map_cons, List.map_nil, firstViolation, Option.or_none, Option.or_assoc]
  rfl

/-- Operands that are all legal pass, and the first illegal one is reported. -/
theorem validated_fields {α : Type} (l : List Field) (v : α) :
    (AllInDomain l → validated (firstViolation (l.map fieldCheck)) v = .ok v) ∧
    (∀ r, FirstViolation l r → validated (firstViolation (l.map fieldCheck)) v = .error r) := by
  constructor
  · intro h; rw [(firstViolation_fields_eq_none_iff l).2 h]; rfl
  · intro r h; rw [(firstViolation_fields_eq_some_iff l r).2 h]; rfl

theorem checkDevid_legal {d : Nat} (h : 1 ≤ d) (h8 : d ≤ 8) : checkDevid d = none :=
  within_eq_none_iff.2 ⟨h, h8⟩

theorem checkDevid_illegal {d : Nat} (h : d < 1 ∨ 8 < d) :
    checkDevid d = some ⟨.validation, .vDevid, .value d⟩ :=
  within_eq_some_iff.2 ⟨by omega, rfl⟩

/-! ### PAYLOAD_MAX -/

theorem payloadMax_ge {m : Nat} (h : Config.payloadMax = some m) : 69 ≤ m := by
  unfold Config.payloadMax at h
  split at h <;> simp at h
  omega

theorem payloadTooLong_iff (n : Nat) :
    Config.payloadTooLong n = true ↔ ∃ m, Config.payloadMax = some m ∧ m < n := by
  unfold Config.payloadTooLong
  cases h : Config.payloadMax with
  | none => simp
  | some m =>
    have := payloadMax_ge h
    simp
    omega

theorem checkPayload_eq (p : List Byte) :
    checkPayload p = byPayloadMax p none (some ⟨.validation, .vPayloadLen, .value p.length⟩) := by
  unfold checkPayload byPayloadMax
  have h := payloadTooLong_iff p.length
  cases hm : Config.payloadMax with
  | none => simp [hm] at h; simp [h]
  | some m =>
    simp [hm] at h
    by_cases hl : p.length ≤ m
    · have : Config.payloadTooLong p.length = false := by
        rw [← Bool.not_eq_true, h]; omega
      simp [hl, this]
    · have : Config.payloadTooLong p.length = true := h.2 (by omega)
      simp [hl, this, Res.invalid]

theorem checkPayload_within {p : List Byte} (h : WithinPayloadMax p) : checkPayload p = none := by
  rw [checkPayload_eq]
  unfold byPayloadMax
  cases hm : Config.payloadMax with
  | none => rfl
  | some m => simp [h m hm]

end Sys2Proof.Machine
end

