-- ==== Sys2Proof/Laws/Transport.lean ====
section
/-! SUPPORT. What a transition of the send machine can do, and the frames and tokens it works on. -/

namespace Sys2Proof.Machine

@[simp] theorem hex2_length (v : Nat) : (hex2 v).length = 2 := rfl

@[simp] theorem ackToken_length : ackToken.length = 3 := rfl

theorem frame_length (d : Nat) (p : List Byte) : (frame d p).length = 11 + p.length := by
  simp [frame, hex2]; omega

/-- FB, EXP, MAXRETRY, TIMEOUT, SUBST and the inputs of the host stand through every transition; OUT too. -/
theorem transportStep_frame (s : State) :
    (transportStep s).fb = s.fb ∧ (transportStep s).exp = s.exp ∧
    (transportStep s).maxRetry = s.maxRetry ∧ (transportStep s).timeout = s.timeout ∧
    (transportStep s).subst = s.subst ∧ (transportStep s).out = s.out ∧
    (transportStep s).pending = s.pending ∧ (transportStep s).resetReq = s.resetReq := by
  unfold transportStep sendingStep awaitStep drainStep retryStep
  cases s.st <;> simp only [] <;> (try split) <;> simp

/-- Everything a transition of a running send can do. -/
theorem transportStep_cases {s : State} (h : s.portReady = false) :
    (s.st = .sending ∧ transportStep s = sendingStep s) ∨
    (s.st = .awaitingAck ∧ s.chAnswer s.exp.length = s.exp ∧
      transportStep s = (s.chRead s.exp.length).succeed) ∨
    (s.st = .awaitingAck ∧ s.chAnswer s.exp.length ≠ s.exp ∧
      transportStep s = drainStep (s.chAnswer s.exp.length) (s.chRead s.exp.length)) ∨
    (s.st = .retrying ∧ s.att < s.maxRetry ∧ transportStep s = { s with st := .sending }) ∨
    (s.st = .retrying ∧ s.maxRetry ≤ s.att ∧ transportStep s = s.fail) := by
  rcases (portBusy_iff s).1 h with hs | hs | hs
  · exact .inl ⟨hs, transportStep_sending hs⟩
  · rw [transportStep_awaiting hs]
    unfold awaitStep
    split
    · rename_i hm; exact .inr (.inl ⟨hs, hm, rfl⟩)
    · rename_i hm; exact .inr (.inr (.inl ⟨hs, hm, rfl⟩))
  · rw [transportStep_retrying hs]
    unfold retryStep
    split
    · rename_i hm; exact .inr (.inr (.inr (.inl ⟨hs, hm, rfl⟩)))
    · rename_i hm; exact .inr (.inr (.inr (.inr ⟨hs, by omega, rfl⟩)))

@[simp] theorem sendPayload_ok (d : Nat) (p : List Byte) (s : State) :
    s.sendPayload d (.ok p) = (s.loadPb p).startSend (frame d p) ackToken := rfl

@[simp] theorem sendPayload_error (d : Nat) (r : Res) (s : State) :
    s.sendPayload d (.error r) = s.raise r := rfl

@[simp] theorem confirmedSess_none {s : State} (h : s.newId = none) : s.confirmedSess = s.sess := by
  simp [State.confirmedSess, h]

theorem confirmedSess_some {s : State} {n d : Nat} (h : s.newId = some n) (hs : s.sess = .opened d) :
    s.confirmedSess = .opened n := by simp [State.confirmedSess, h, hs, Session.setDevid]

end Sys2Proof.Machine
end

