-- ==== Sys2Proof/Laws/Meanings.lean ====
section
/-! SUPPORT. What an accepted operation can do, said once for all sixteen: `exec_cases`. -/

namespace Sys2Proof.Machine

/-- A check of operands answers a ValidationError or nothing. -/
def OnlyValidation (v : Option Res) : Prop := ∀ r, v = some r → r.cls = .validation

theorem onlyValidation_within (lo hi v : Nat) (c : Cause) (i : Info) :
    OnlyValidation (within lo hi v c i) := fun r h => by
  rw [(within_eq_some_iff.1 h).2]; rfl

theorem onlyValidation_fields (l : List Field) :
    OnlyValidation (firstViolation (l.map fieldCheck)) := fun r h => by
  obtain ⟨_, f, _, _, _, _, rfl⟩ := (firstViolation_fields_eq_some_iff l r).1 h
  rfl

theorem onlyValidation_payload (p : List Byte) : OnlyValidation (checkPayload p) := fun r h => by
  unfold checkPayload at h
  split at h <;> simp at h
  rw [← h]; rfl

theorem onlyValidation_first {l : List (Option Res)} (h : ∀ v ∈ l, OnlyValidation v) :
    OnlyValidation (firstViolation l) := by
  induction l with
  | nil => intro r hr; cases hr
  | cons v vs ih =>
    cases v with
    | none => exact ih fun w hw => h w (by simp [hw])
    | some r' => exact h (some r') (by simp)

/-- A failure of `esc` is an EncodingError. -/
theorem escFrom_error {t : SubstTable} {text : List Nat} : ∀ {k : Nat} {r : Res},
    escFrom t k text = .error r → r.cls = .encoding := by
  induction text with
  | nil => intro k r h; cases h
  | cons c cs ih =>
    intro k r h
    unfold escFrom at h
    split at h
    · cases h; rfl
    · split at h
      · cases h
      · rename_i h'; cases h; exact ih h'

/-- What delivering a validated value can leave. -/
theorem deliver_validated {v : Option Res} (hv : OnlyValidation v) (b : List Byte) (s : State) :
    (∃ r, s.deliver (validated v b) = s.raise r ∧ r.cls = .validation) ∨
    s.deliver (validated v b) = s.complete b := by
  cases v with
  | none => exact .inr rfl
  | some r => exact .inl ⟨r, rfl, hv r rfl⟩

/-- What sending a validated payload can leave. -/
theorem sendPayload_validated {v : Option Res} (hv : OnlyValidation v) (d : Nat) (b : List Byte)
    (s : State) :
    (∃ r, s.sendPayload d (validated v b) = s.raise r ∧ r.cls = .validation) ∨
    s.sendPayload d (validated v b) = (s.loadPb b).startSend (frame d b) ackToken := by
  cases v with
  | none => exact .inr rfl
  | some r => exact .inl ⟨r, rfl, hv r rfl⟩

@[simp] theorem raise_loadTxt (x : List Nat) (r : Res) (s : State) :
    (s.loadTxt x).raise r = s.raise r := rfl
@[simp] theorem raise_loadImg (x : List Byte) (r : Res) (s : State) :
    (s.loadImg x).raise r = s.raise r := rfl
@[simp] theorem raise_loadPb (x : List Byte) (r : Res) (s : State) :
    (s.loadPb x).raise r = s.raise r := rfl
@[simp] theorem complete_loadTxt (x : List Nat) (b : List Byte) (s : State) :
    (s.loadTxt x).complete b = s.complete b := rfl
@[simp] theorem complete_loadImg (x b : List Byte) (s : State) :
    (s.loadImg x).complete b = s.complete b := rfl
@[simp] theorem complete_loadPb (x b : List Byte) (s : State) :
    (s.loadPb x).complete b = s.complete b := rfl

/-! ### Each meaning at a ready port -/

variable {s : State}

theorem exec_openSess (h : s.portReady = true) (d : Nat) :
    exec (.openSess d) s = .next (match s.sess with
      | .opened _ => s.accept.raise .alreadyOpen
      | .closed =>
        match checkDevid d with
        | some r => s.accept.raise r
        | none => ({ s.accept with sess := .opened d } : State).complete []) := by
  unfold exec execOpen; exact whenReady_ready h _

theorem exec_close (h : s.portReady = true) :
    exec .close s = .next (match s.sess with
      | .closed => s.accept.raise .closed
      | .opened _ => ({ s.accept.chClose with sess := .closed } : State).complete []) := by
  unfold exec execClose; exact whenReady_ready h _

theorem exec_setcfg (h : s.portReady = true) (m : Nat) (c : Timeout) :
    exec (.setcfg m c) s = .next (match checkMaxRetry m with
      | some r => s.accept.raise r
      | none => ({ s.accept with maxRetry := m, timeout := c } : State).complete []) := by
  unfold exec execSetcfg; exact whenReady_ready h _

theorem exec_esc (h : s.portReady = true) (text : List Nat) :
    exec (.esc text) s = .next ((s.accept.loadTxt text).deliver (esc s.subst text)) := by
  unfold exec execEsc; exact whenReady_ready h _

theorem exec_pack (h : s.portReady = true) (image : List Byte) :
    exec (.pack image) s =
      .next ((s.accept.loadImg image).deliver (validated (checkImage image) (pack image))) := by
  unfold exec execPack; exact whenReady_ready h _

theorem exec_plsc (h : s.portReady = true) (t : ClockTime) :
    exec (.plsc t) s = .next (s.accept.deliver (buildClock t)) := by
  unfold exec execPlsc; exact whenReady_ready h _

theorem exec_plt (h : s.portReady = true) (sc : Byte) (a b : DateTime) (pages : List Byte) :
    exec (.plt sc a b pages) s = .next (s.accept.deliver (buildSchedule sc a b pages)) := by
  unfold exec execPlt; exact whenReady_ready h _

theorem exec_plg (h : s.portReady = true) (pg : Byte) (bl : Nat) (image : List Byte) :
    exec (.plg pg bl image) s =
      .next ((s.accept.loadImg image).deliver (buildGraphics pg bl image)) := by
  unfold exec execPlg; exact whenReady_ready h _

theorem exec_csum (h : s.portReady = true) (p : List Byte) :
    exec (.csum p) s =
      .next ((s.accept.loadPb p).deliver (validated (checkPayload p) [checksum p])) := by
  unfold exec execCsum; exact whenReady_ready h _

theorem exec_wrap (h : s.portReady = true) (d : Nat) (p : List Byte) :
    exec (.wrap d p) s =
      .next ((s.accept.loadPb p).deliver
        (validated (firstViolation [checkDevid d, checkPayload p]) (frame d p))) := by
  unfold exec execWrap; exact whenReady_ready h _

theorem exec_wrapid (h : s.portReady = true) (n : Nat) :
    exec (.wrapid n) s = .next (s.accept.deliver (validated (checkDevid n) (idFrame n))) := by
  unfold exec execWrapid; exact whenReady_ready h _

theorem exec_send (h : s.portReady = true) (p : List Byte) :
    exec (.send p) s =
      .next (s.accept.withDevid fun d s => s.sendPayload d (validated (checkPayload p) p)) := by
  unfold exec execSend; exact whenReady_ready h _

theorem exec_sendsc (h : s.portReady = true) (t : ClockTime) :
    exec (.sendsc t) s =
      .next (s.accept.withDevid fun d s => s.sendPayload d (buildClock t)) := by
  unfold exec execSendsc; exact whenReady_ready h _

theorem exec_sendt (h : s.portReady = true) (sc : Byte) (a b : DateTime) (pages : List Byte) :
    exec (.sendt sc a b pages) s =
      .next (s.accept.withDevid fun d s => s.sendPayload d (buildSchedule sc a b pages)) := by
  unfold exec execSendt; exact whenReady_ready h _

theorem exec_sendg (h : s.portReady = true) (pg : Byte) (bl : Nat) (image : List Byte) :
    exec (.sendg pg bl image) s =
      .next (s.accept.withDevid fun d s =>
        (s.loadImg image).sendPayload d (buildGraphics pg bl image)) := by
  unfold exec execSendg; exact whenReady_ready h _

theorem exec_setid (h : s.portReady = true) (n : Nat) :
    exec (.setid n) s =
      .next (s.accept.withDevid fun _ s =>
        match checkDevid n with
        | some r => s.raise r
        | none => (s.holdNewId n).startSend (idFrame n) (hex2 n)) := by
  unfold exec execSetid; exact whenReady_ready h _

/-! ### The accepted cases -/

/-- The error classes of an operation that does not send. -/
def IsError (r : Res) : Prop := r.cls = .validation ∨ r.cls = .encoding ∨ r.cls = .refused

/-- Everything an accepted operation can do: end in an error, deliver bytes, open, close, configure, or start
a send of a normal frame or of an ID-set frame. -/
def AcceptedCases (i : Instr) (s t : State) : Prop :=
  (∃ r, IsError r ∧ t = s.accept.raise r) ∨
  (∃ b, isPure i = true ∧ t = s.accept.complete b) ∨
  (∃ d, i = .openSess d ∧ 1 ≤ d ∧ d ≤ 8 ∧ s.sess = .closed ∧
    t = ({ s.accept with sess := .opened d } : State).complete []) ∨
  (∃ d, i = .close ∧ s.sess = .opened d ∧
    t = ({ s.accept.chClose with sess := .closed } : State).complete []) ∨
  (∃ m c, i = .setcfg m c ∧ 1 ≤ m ∧ m ≤ 255 ∧
    t = ({ s.accept with maxRetry := m, timeout := c } : State).complete []) ∨
  (∃ d g p, s.sess = .opened d ∧
    t = ((s.accept.loadImg g).loadPb p).startSend (frame d p) ackToken) ∨
  (∃ d n, i = .setid n ∧ s.sess = .opened d ∧ 1 ≤ n ∧ n ≤ 8 ∧
    t = (s.accept.holdNewId n).startSend (idFrame n) (hex2 n))

theorem accepted_error {i : Instr} {r : Res} (h : r.cls = .validation) :
    AcceptedCases i s (s.accept.raise r) := .inl ⟨r, .inl h, rfl⟩

theorem accepted_refused {i : Instr} {r : Res} (h : r.cls = .refused) :
    AcceptedCases i s (s.accept.raise r) := .inl ⟨r, .inr (.inr h), rfl⟩

theorem accepted_deliver {i : Instr} {u : State} (hi : isPure i = true) {v : Option Res}
    (hv : OnlyValidation v) (b : List Byte) (hr : ∀ r, u.raise r = s.accept.raise r)
    (hc : u.complete b = s.accept.complete b) :
    AcceptedCases i s (u.deliver (validated v b)) := by
  rcases deliver_validated hv b u with ⟨r, h, hr'⟩ | h
  · rw [h, hr]; exact accepted_error hr'
  · rw [h, hc]; exact .inr (.inl ⟨b, hi, rfl⟩)

theorem accepted_send {i : Instr} {d : Nat} (hd : s.sess = .opened d) {v : Option Res}
    (hv : OnlyValidation v) (g b : List Byte) :
    AcceptedCases i s ((s.accept.loadImg g).sendPayload d (validated v b)) := by
  rcases sendPayload_validated hv d b (s.accept.loadImg g) with ⟨r, h, hr⟩ | h
  · rw [h, raise_loadImg]; exact accepted_error hr
  · rw [h]; exact .inr (.inr (.inr (.inr (.inr (.inl ⟨d, g, b, hd, rfl⟩)))))

/-- A sending body behind the session check. -/
theorem accepted_withDevid {i : Instr} {body : Nat → State → State}
    (h : ∀ d, s.sess = .opened d → AcceptedCases i s (body d s.accept)) :
    AcceptedCases i s (s.accept.withDevid body) := by
  cases hs : s.sess with
  | closed =>
    rw [withDevid_closed (s := s.accept) (by simp [hs])]
    exact accepted_refused rfl
  | opened d =>
    rw [withDevid_opened (s := s.accept) (d := d) (by simp [hs])]
    exact h d hs

/-- Every operation accepted by a ready block does one of the accepted cases. -/
theorem exec_cases {i : Instr} {t : State} (h : s.portReady = true) (he : exec i s = .next t) :
    AcceptedCases i s t := by
  cases i with
  | openSess d =>
    rw [exec_openSess h] at he
    cases he
    cases hs : s.sess with
    | opened e => exact accepted_refused rfl
    | closed =>
      cases hd : checkDevid d with
      | some r => exact accepted_error (onlyValidation_within _ _ _ _ _ r hd)
      | none =>
        have := within_eq_none_iff.1 hd
        exact .inr (.inr (.inl ⟨d, rfl, this.1, this.2, hs, rfl⟩))
  | close =>
    rw [exec_close h] at he
    cases he
    cases hs : s.sess with
    | closed => exact accepted_refused rfl
    | opened e =>
      exact .inr (.inr (.inr (.inl ⟨e, rfl, hs, rfl⟩)))
  | setcfg m c =>
    rw [exec_setcfg h] at he
    cases he
    cases hm : checkMaxRetry m with
    | some r => exact accepted_error (onlyValidation_within _ _ _ _ _ r hm)
    | none =>
      have := within_eq_none_iff.1 hm
      exact .inr (.inr (.inr (.inr (.inl ⟨m, c, rfl, this.1, this.2, rfl⟩))))
  | esc text =>
    rw [exec_esc h] at he
    cases he
    show AcceptedCases _ s ((s.accept.loadTxt text).deliver (esc s.subst text))
    cases hx : esc s.subst text with
    | ok b => exact .inr (.inl ⟨b, rfl, rfl⟩)
    | error r => exact .inl ⟨r, .inr (.inl (escFrom_error hx)), rfl⟩
  | pack image =>
    rw [exec_pack h] at he
    cases he
    exact accepted_deliver rfl (by rw [checkImage_eq]; exact onlyValidation_fields _) _
      (fun _ => rfl) rfl
  | plsc time =>
    rw [exec_plsc h] at he
    cases he
    exact accepted_deliver rfl (by rw [checkClock_eq]; exact onlyValidation_fields _) _
      (fun _ => rfl) rfl
  | plt sc a b pages =>
    rw [exec_plt h] at he
    cases he
    exact accepted_deliver rfl (by rw [checkPlt_eq]; exact onlyValidation_fields _) _
      (fun _ => rfl) rfl
  | plg pg bl image =>
    rw [exec_plg h] at he
    cases he
    exact accepted_deliver rfl (by rw [checkPlg_eq]; exact onlyValidation_fields _) _
      (fun _ => rfl) rfl
  | csum p =>
    rw [exec_csum h] at he
    cases he
    exact accepted_deliver rfl (onlyValidation_payload _) _ (fun _ => rfl) rfl
  | wrap d p =>
    rw [exec_wrap h] at he
    cases he
    refine accepted_deliver rfl (onlyValidation_first fun v hv => ?_) _ (fun _ => rfl) rfl
    rcases List.mem_cons.1 hv with rfl | hv
    · exact onlyValidation_within _ _ _ _ _
    · rw [List.mem_singleton.1 hv]; exact onlyValidation_payload _
  | wrapid n =>
    rw [exec_wrapid h] at he
    cases he
    exact accepted_deliver rfl (onlyValidation_within _ _ _ _ _) _ (fun _ => rfl) rfl
  | send p =>
    rw [exec_send h] at he
    cases he
    exact accepted_withDevid fun d hd => accepted_send hd (onlyValidation_payload _) [] _
  | sendsc time =>
    rw [exec_sendsc h] at he
    cases he
    exact accepted_withDevid fun d hd =>
      accepted_send hd (by rw [checkClock_eq]; exact onlyValidation_fields _) [] _
  | sendt sc a b pages =>
    rw [exec_sendt h] at he
    cases he
    exact accepted_withDevid fun d hd =>
      accepted_send hd (by rw [checkPlt_eq]; exact onlyValidation_fields _) [] _
  | sendg pg bl image =>
    rw [exec_sendg h] at he
    cases he
    exact accepted_withDevid fun d hd =>
      accepted_send hd (by rw [checkPlg_eq]; exact onlyValidation_fields _) image _
  | setid n =>
    rw [exec_setid h] at he
    cases he
    refine accepted_withDevid fun d hd => ?_
    cases hn : checkDevid n with
    | some r => exact accepted_error (onlyValidation_within _ _ _ _ _ r hn)
    | none =>
      have := within_eq_none_iff.1 hn
      exact .inr (.inr (.inr (.inr (.inr (.inr ⟨d, n, rfl, hd, this.1, this.2, rfl⟩)))))

end Sys2Proof.Machine
end

