-- ==== Sys2Proof/Laws/Record.lean ====
section
/-! SUPPORT. The record's fields read back: one byte, two, three and four, the clock, the schedule and the
text. -/

namespace Sys2Proof

/-- Each row's code selects that row: no two rows share a code. -/
theorem rowOf_code (o : OpCode) : rowOf o.code = some o := by cases o <;> decide

theorem rowOf_eq_some_iff (op : Byte) (o : OpCode) : rowOf op = some o ↔ op = o.code := by
  constructor
  · intro h
    unfold rowOf at h
    have hc := List.find?_some h
    exact (beq_iff_eq.1 hc).symm
  · rintro rfl; exact rowOf_code o

theorem rowOf_eq_none_iff (op : Byte) : rowOf op = none ↔ ∀ o : OpCode, op ≠ o.code := by
  constructor
  · rintro h o rfl; rw [rowOf_code] at h; cases h
  · intro h
    cases hr : rowOf op with
    | none => rfl
    | some o => exact absurd ((rowOf_eq_some_iff op o).1 hr) (h o)

theorem byte_toNat (n : Nat) : (byte n).toNat = n % 256 := by simp [byte]

theorem byte_toNat_of_fits {n : Nat} (h : fits8 n = true) : (byte n).toNat = n := by
  simp only [fits8, decide_eq_true_eq] at h
  rw [byte_toNat]; omega

theorem byte_of_toNat (b : Byte) : byte b.toNat = b := by
  apply BitVec.eq_of_toNat_eq
  rw [byte_toNat]; exact Nat.mod_eq_of_lt b.isLt

theorem fits8_toNat (b : Byte) : fits8 b.toNat = true := by
  simpa [fits8] using b.isLt

theorem fits16_nat2 (a b : Byte) : fits16 (nat2 a b) = true := by
  have ha := a.isLt; have hb := b.isLt
  unfold fits16 nat2; rw [decide_eq_true_eq]; omega

theorem fits32_nat4 (a b c d : Byte) : fits32 (nat4 a b c d) = true := by
  have ha := a.isLt; have hb := b.isLt; have hc := c.isLt; have hd := d.isLt
  unfold fits32 nat4 nat3 nat2; rw [decide_eq_true_eq]; omega

theorem nat2_put2 {n : Nat} (h : fits16 n = true) : nat2 (byte (n / 256)) (byte n) = n := by
  simp only [fits16, decide_eq_true_eq] at h
  simp only [nat2, byte_toNat]; omega

/-- What fits the operand widths fits the record. -/
theorem presentable_of_wellFormed {i : Instr} (h : i.wellFormed = true) : i.presentable = true := by
  cases i with
  | esc text =>
    simp only [Instr.wellFormed, Instr.presentable, List.all_eq_true, fits21, fits24,
      decide_eq_true_eq] at h ⊢
    exact fun c hc => Nat.lt_trans (h c hc) (by decide)
  | _ => exact h

theorem fits24_nat3 (a b c : Byte) : fits24 (nat3 a b c) = true := by
  have ha := a.isLt; have hb := b.isLt; have hc := c.isLt
  unfold fits24 nat3 nat2; rw [decide_eq_true_eq]; omega

theorem nat3_put3 {n : Nat} (h : fits24 n = true) :
    nat3 (byte (n / 65536)) (byte (n / 256)) (byte n) = n := by
  simp only [fits24, decide_eq_true_eq] at h
  simp only [nat3, nat2, byte_toNat]; omega

theorem nat4_put4 {n : Nat} (h : fits32 n = true) :
    nat4 (byte (n / 16777216)) (byte (n / 65536)) (byte (n / 256)) (byte n) = n := by
  simp only [fits32, decide_eq_true_eq] at h
  simp only [nat4, nat3, nat2, byte_toNat]; omega

theorem put2_nat2 (a b : Byte) : put2 (nat2 a b) = [a, b] := by
  have ha := a.isLt; have hb := b.isLt
  simp only [put2, nat2, List.cons.injEq, and_true]
  constructor <;> apply BitVec.eq_of_toNat_eq <;> rw [byte_toNat] <;> omega

theorem put3_nat3 (a b c : Byte) : put3 (nat3 a b c) = [a, b, c] := by
  have ha := a.isLt; have hb := b.isLt; have hc := c.isLt
  simp only [put3, nat3, nat2, List.cons.injEq, and_true]
  refine ⟨?_, ?_, ?_⟩ <;> apply BitVec.eq_of_toNat_eq <;> rw [byte_toNat] <;> omega

theorem put4_nat4 (a b c d : Byte) : put4 (nat4 a b c d) = [a, b, c, d] := by
  have ha := a.isLt; have hb := b.isLt; have hc := c.isLt; have hd := d.isLt
  simp only [put4, nat4, nat3, nat2, List.cons.injEq, and_true]
  refine ⟨?_, ?_, ?_, ?_⟩ <;> apply BitVec.eq_of_toNat_eq <;> rw [byte_toNat] <;> omega

theorem decodeText_put3 (text : List Nat) (h : text.all fits24 = true) :
    decodeText (text.flatMap put3) = .ok text := by
  induction text with
  | nil => rfl
  | cons c cs ih =>
    simp only [List.all_cons, Bool.and_eq_true] at h
    simp only [List.flatMap_cons, put3, List.cons_append, List.nil_append, decodeText,
      nat3_put3 h.1]
    rw [ih h.2]

theorem decodeClock_encodeClock {t : ClockTime} (h : t.wellFormed = true) (mk : ClockTime → Instr) :
    decodeClock (encodeClock t) mk = .ok (mk t) := by
  simp only [ClockTime.wellFormed, Bool.and_eq_true] at h
  obtain ⟨⟨⟨⟨⟨⟨hy, hw⟩, hmo⟩, hd⟩, hh⟩, hmi⟩, hs⟩ := h
  simp [decodeClock, encodeClock, exactly, put2, nat2_put2 hy, byte_toNat_of_fits hw, byte_toNat_of_fits hmo,
    byte_toNat_of_fits hd, byte_toNat_of_fits hh, byte_toNat_of_fits hmi, byte_toNat_of_fits hs]

theorem decodeSchedule_encode {a b : DateTime} (ha : a.wellFormed = true) (hb : b.wellFormed = true)
    (sc : Byte) (pages : List Byte) (mk : Byte → DateTime → DateTime → List Byte → Instr) :
    decodeSchedule (sc :: (encodeDateTime a ++ encodeDateTime b ++ pages)) mk =
      .ok (mk sc a b pages) := by
  simp only [DateTime.wellFormed, Bool.and_eq_true] at ha hb
  obtain ⟨⟨⟨⟨hy, hmo⟩, hd⟩, hh⟩, hmi⟩ := ha
  obtain ⟨⟨⟨⟨hy', hmo'⟩, hd'⟩, hh'⟩, hmi'⟩ := hb
  simp [decodeSchedule, encodeDateTime, put2, nat2_put2 hy, nat2_put2 hy', byte_toNat_of_fits hmo,
    byte_toNat_of_fits hd, byte_toNat_of_fits hh, byte_toNat_of_fits hmi, byte_toNat_of_fits hmo',
    byte_toNat_of_fits hd', byte_toNat_of_fits hh', byte_toNat_of_fits hmi']

/-- The record of an operation is decoded by its row from its operand bytes. -/
theorem decode_encode_eq (i : Instr) :
    decode (encode i) = decodeOperands i.row (encodeOperands i) := by
  show (match rowOf i.row.code with
    | some row => decodeOperands row (encodeOperands i)
    | none => .error (.reservedCode i.row.code)) = _
  rw [rowOf_code]

theorem decodeByte_byte {n : Nat} (h : fits8 n = true) (mk : Nat → Instr) :
    decodeByte [byte n] mk = .ok (mk n) := by
  show Except.ok (mk (byte n).toNat) = _
  rw [byte_toNat_of_fits h]

end Sys2Proof
end

