-- ==== Sys2Proof/Laws/PerInstr.lean ====
section
/-! SUPPORT. Statements about every operation as syntax, one lemma a constructor. Family `RoundTrip`: the record
of an operation that fits it, a well-formed one among them, decodes to that operation. -/

namespace Sys2Proof.Laws.RoundTrip

/-- Decoding undoes encoding. -/
def Statement (i : Instr) : Prop := i.presentable = true → decode (encode i) = .ok i

theorem openSess (d : Nat) : Statement (.openSess d) := fun h =>
  (decode_encode_eq _).trans (decodeByte_byte h _)

theorem close : Statement .close := fun _ => decode_encode_eq _

theorem setcfg (m : Nat) (t : Timeout) : Statement (.setcfg m t) := fun h => by
  have h := Bool.and_eq_true_iff.1 h
  refine (decode_encode_eq _).trans ?_
  show Except.ok (Instr.setcfg (byte m).toNat ⟨nat4 _ _ _ _⟩) = _
  rw [byte_toNat_of_fits h.1, nat4_put4 h.2]

theorem esc (text : List Nat) : Statement (.esc text) := fun h => by
  refine (decode_encode_eq _).trans ?_
  show (match decodeText (text.flatMap put3) with
    | .ok text => Except.ok (Instr.esc text)
    | .error e => .error e) = _
  rw [decodeText_put3 text h]

theorem pack (image : List Byte) : Statement (.pack image) := fun _ => decode_encode_eq _

theorem plsc (t : ClockTime) : Statement (.plsc t) := fun h =>
  (decode_encode_eq _).trans (decodeClock_encodeClock h _)

theorem plt (sc : Byte) (a b : DateTime) (pages : List Byte) : Statement (.plt sc a b pages) :=
  fun h => (decode_encode_eq _).trans
    (decodeSchedule_encode (Bool.and_eq_true_iff.1 h).1 (Bool.and_eq_true_iff.1 h).2 _ _ _)

theorem plg (pg : Byte) (bl : Nat) (image : List Byte) : Statement (.plg pg bl image) := fun h => by
  refine (decode_encode_eq _).trans ?_
  show Except.ok (Instr.plg pg (byte bl).toNat image) = _
  rw [byte_toNat_of_fits h]

theorem csum (p : List Byte) : Statement (.csum p) := fun _ => decode_encode_eq _

theorem wrap (d : Nat) (p : List Byte) : Statement (.wrap d p) := fun h => by
  refine (decode_encode_eq _).trans ?_
  show Except.ok (Instr.wrap (byte d).toNat p) = _
  rw [byte_toNat_of_fits h]

theorem wrapid (n : Nat) : Statement (.wrapid n) := fun h =>
  (decode_encode_eq _).trans (decodeByte_byte h _)

theorem send (p : List Byte) : Statement (.send p) := fun _ => decode_encode_eq _

theorem sendsc (t : ClockTime) : Statement (.sendsc t) := fun h =>
  (decode_encode_eq _).trans (decodeClock_encodeClock h _)

theorem sendt (sc : Byte) (a b : DateTime) (pages : List Byte) : Statement (.sendt sc a b pages) :=
  fun h => (decode_encode_eq _).trans
    (decodeSchedule_encode (Bool.and_eq_true_iff.1 h).1 (Bool.and_eq_true_iff.1 h).2 _ _ _)

theorem sendg (pg : Byte) (bl : Nat) (image : List Byte) : Statement (.sendg pg bl image) :=
  fun h => by
    refine (decode_encode_eq _).trans ?_
    show Except.ok (Instr.sendg pg (byte bl).toNat image) = _
    rw [byte_toNat_of_fits h]

theorem setid (n : Nat) : Statement (.setid n) := fun h =>
  (decode_encode_eq _).trans (decodeByte_byte h _)

end Sys2Proof.Laws.RoundTrip
end

