-- ==== Sys2Proof/Laws/Subst.lean ====
section
/-! SUPPORT. The substitution table: putting a key in keeps the table's form, so the ROM of the block meets W1
to W5 of `41_character_encoder.md` R82 whatever its open entries are; and what a lookup finds. -/

namespace Sys2Proof

theorem HexDigit.ascii_isHex (h : HexDigit) : isHexCode h.ascii.toNat = true := by
  revert h; decide

theorem isToken_tokenOf (d : HexDigit × HexDigit) : isToken (tokenOf d) = true := by
  simp [isToken, tokenOf, HexDigit.ascii_isHex]

theorem SubstTable.mem_insert {k : Nat} {tok : List Byte} {t : SubstTable} {e : Nat × List Byte}
    (h : e ∈ SubstTable.insert k tok t) : e = (k, tok) ∨ e ∈ t := by
  induction t with
  | nil => simpa [SubstTable.insert] using h
  | cons a rest ih =>
    obtain ⟨a, x⟩ := a
    simp only [SubstTable.insert] at h
    split at h
    · simpa using h
    · split at h
      · exact .inr h
      · rcases List.mem_cons.1 h with rfl | h
        · simp
        · rcases ih h with h | h <;> simp [h]

theorem SubstTable.mem_insert_of_mem {k : Nat} {tok : List Byte} {t : SubstTable}
    {e : Nat × List Byte} (h : e ∈ t) : e ∈ SubstTable.insert k tok t := by
  induction t with
  | nil => cases h
  | cons a rest ih =>
    obtain ⟨a, x⟩ := a
    simp only [SubstTable.insert]
    split
    · simp [h]
    · split
      · exact h
      · rcases List.mem_cons.1 h with rfl | h
        · simp
        · simp [ih h]

theorem SubstTable.insert_rising {k : Nat} {tok : List Byte} {t : SubstTable}
    (h : (t.map Prod.fst).Pairwise (· < ·)) :
    ((SubstTable.insert k tok t).map Prod.fst).Pairwise (· < ·) := by
  induction t with
  | nil => simp [SubstTable.insert]
  | cons a rest ih =>
    obtain ⟨a, x⟩ := a
    simp only [List.map_cons, List.pairwise_cons] at h
    simp only [SubstTable.insert]
    split
    · rename_i hk
      simp only [List.map_cons, List.pairwise_cons]
      refine ⟨?_, h⟩
      intro b hb
      rcases List.mem_cons.1 hb with rfl | hb
      · exact hk
      · exact Nat.lt_trans hk (h.1 b hb)
    · split
      · simpa using h
      · rename_i hk hne
        simp only [List.map_cons, List.pairwise_cons]
        refine ⟨?_, ih h.2⟩
        intro b hb
        obtain ⟨e, he, rfl⟩ := List.mem_map.1 hb
        rcases SubstTable.mem_insert he with rfl | he
        · show a < k; omega
        · exact h.1 _ (List.mem_map_of_mem he)

/-- Putting in a key that is no token character, with a token, keeps W1 to W5. -/
theorem SubstTable.insert_wf {k : Nat} {tok : List Byte} {t : SubstTable} (h : t.Wf)
    (htok : isToken tok = true) (hk : isTokenChar k = false) : (SubstTable.insert k tok t).Wf := by
  obtain ⟨h1, h2, h3, h4, h5⟩ := h
  refine ⟨SubstTable.insert_rising h1, ?_, ?_, SubstTable.mem_insert_of_mem h4, ?_⟩
  · intro e he; rcases SubstTable.mem_insert he with rfl | he
    · exact htok
    · exact h2 e he
  · intro e he; rcases SubstTable.mem_insert he with rfl | he
    · exact hk
    · exact h3 e he
  · intro k' hk'
    obtain ⟨e, he, rfl⟩ := List.mem_map.1 (h5 k' hk')
    exact List.mem_map_of_mem (SubstTable.mem_insert_of_mem he)

theorem Config.substBase_wf : Config.substBase.Wf := by
  refine ⟨?_, ?_, ?_, ?_, ?_⟩
  · show List.Pairwise (· < ·)
      [0xC4, 0xD6, 0xDC, 0xDF, 0xE4, 0xF6, 0xFC, 0x20AC, 0x2190, 0x2191, 0x2192, 0x2193]
    decide
  · intro e he
    simp only [Config.substBase, List.mem_cons, List.not_mem_nil, or_false] at he
    rcases he with rfl | rfl | rfl | rfl | rfl | rfl | rfl | rfl | rfl | rfl | rfl | rfl <;>
      first | exact isToken_tokenOf _ | decide
  · intro e he
    simp only [Config.substBase, List.mem_cons, List.not_mem_nil, or_false] at he
    rcases he with rfl | rfl | rfl | rfl | rfl | rfl | rfl | rfl | rfl | rfl | rfl | rfl <;> rfl
  · simp [Config.substBase]
  · intro k hk
    show k ∈ [0xC4, 0xD6, 0xDC, 0xDF, 0xE4, 0xF6, 0xFC, 0x20AC, 0x2190, 0x2191, 0x2192, 0x2193]
    revert k; decide

/-- The ROM of the block meets W1 to W5, whatever its open tokens and further keys are. -/
theorem Config.substTable_wf : Config.substTable.Wf := by
  unfold Config.substTable
  generalize Config.substExtra = extra
  induction extra with
  | nil => exact Config.substBase_wf
  | cons e rest ih =>
    simp only [List.foldr_cons]
    split
    · exact ih
    · rename_i hk
      simp only [Bool.or_eq_true, not_or] at hk
      exact SubstTable.insert_wf ih (isToken_tokenOf _) (by simpa using hk.1)

theorem SubstTable.insert_scalarKeys {k : Nat} {tok : List Byte} {t : SubstTable}
    (h : t.ScalarKeys) (hk : isScalar k = true) : (SubstTable.insert k tok t).ScalarKeys := by
  intro e he
  rcases SubstTable.mem_insert he with rfl | he
  · exact hk
  · exact h e he

theorem Config.substBase_scalarKeys : Config.substBase.ScalarKeys := by
  intro e he
  simp only [Config.substBase, List.mem_cons, List.not_mem_nil, or_false] at he
  rcases he with rfl | rfl | rfl | rfl | rfl | rfl | rfl | rfl | rfl | rfl | rfl | rfl <;> rfl

/-- No key of the ROM is a surrogate or lies above 0x10FFFF, whatever its further keys are. -/
theorem Config.substTable_scalarKeys : Config.substTable.ScalarKeys := by
  unfold Config.substTable
  generalize Config.substExtra = extra
  induction extra with
  | nil => exact Config.substBase_scalarKeys
  | cons e rest ih =>
    simp only [List.foldr_cons]
    split
    · exact ih
    · rename_i hk
      simp only [Bool.or_eq_true, Bool.not_eq_true', not_or] at hk
      exact SubstTable.insert_scalarKeys ih (by simpa using hk.2)

theorem isToken_length {b : List Byte} (h : isToken b = true) : b.length = 5 := by
  unfold isToken at h
  split at h
  · rfl
  · cases h

namespace Machine

/-- In a table whose keys rise, a lookup finds the one token of a key. -/
theorem lookupToken_eq_some_iff {t : SubstTable} (h : (t.map Prod.fst).Pairwise (· < ·)) (c : Nat)
    (b : List Byte) : lookupToken t c = some b ↔ (c, b) ∈ t := by
  induction t with
  | nil => simp [lookupToken]
  | cons e rest ih =>
    obtain ⟨a, x⟩ := e
    simp only [List.map_cons, List.pairwise_cons] at h
    by_cases hac : a = c
    · subst hac
      have hn : (a, b) ∉ rest := fun hm =>
        absurd (h.1 a (List.mem_map_of_mem (f := Prod.fst) hm)) (Nat.lt_irrefl a)
      simp [lookupToken, hn, eq_comm]
    · have := ih h.2
      simp only [lookupToken] at this ⊢
      rw [List.find?_cons_of_neg (by simpa using hac), this]
      simp [Ne.symm hac]

theorem lookupToken_eq_none_iff (t : SubstTable) (c : Nat) :
    lookupToken t c = none ↔ c ∉ t.map Prod.fst := by
  simp [lookupToken]
  constructor
  · intro h x hx; exact h c x hx rfl
  · rintro h a b hab rfl; exact h b hab

end Machine

end Sys2Proof
end

