-- ==== Sys2Proof/Tests/Slice0.lean ====
section
/-! SUPPORT. The model's own tests: ill-formed operations, records written out byte by byte, the vectors of
`95_test_vectors.md` one step at a time, and for every statement with hypotheses a named witness that meets
them. Expected values are the spec's (S and V numbers name its vectors). -/

namespace Sys2Proof.Tests

open Sys2Proof Sys2Proof.Machine

/-! ### Small states -/

/-- The state an outcome answers. -/
def answer (r : Result) : Option State :=
  match r with
  | .next t => some t
  | .fault _ => none
  | .refused _ => none

/-- RES in its numeric codes, and OUT. -/
def report (r : Result) : Option ((Nat × Nat × Info) × List Byte) :=
  (answer r).map fun t => (t.res.codes, t.out)

/-- The fixture SUBST_T of `95_test_vectors.md`; only the token of U+20AC is the source's. -/
def substT : SubstTable :=
  [(0xC4, [0x3C, 0x55, 0x30, 0x35, 0x3E]),
   (0xD6, [0x3C, 0x55, 0x30, 0x39, 0x3E]),
   (0xDC, [0x3C, 0x55, 0x30, 0x37, 0x3E]),
   (0xDF, [0x3C, 0x55, 0x30, 0x42, 0x3E]),
   (0xE4, [0x3C, 0x55, 0x30, 0x36, 0x3E]),
   (0xF6, [0x3C, 0x55, 0x30, 0x41, 0x3E]),
   (0xFC, [0x3C, 0x55, 0x30, 0x38, 0x3E]),
   (0x20AC, [0x3C, 0x55, 0x30, 0x30, 0x3E]),
   (0x2190, [0x3C, 0x55, 0x30, 0x34, 0x3E]),
   (0x2191, [0x3C, 0x55, 0x30, 0x31, 0x3E]),
   (0x2192, [0x3C, 0x55, 0x30, 0x33, 0x3E]),
   (0x2193, [0x3C, 0x55, 0x30, 0x32, 0x3E])]

/-- A ready block with a closed session and the fixture table. -/
def ready : State := { State.reset with subst := substT }

/-- A ready block whose session is open with device ID `d`. -/
def opened (d : Nat) : State := { ready with sess := .opened d }

/-- The frame `<ID01>AB03<E>` of V90 to V96. -/
def frameAB : List Byte := [0x3C, 0x49, 0x44, 0x30, 0x31, 0x3E, 0x41, 0x42, 0x30, 0x33, 0x3C, 0x45, 0x3E]

/-- A send of V90 to V96 in transport state `st` with `att` frames written. -/
def sendingAB (st : Fsm) (att : Nat) : State :=
  { opened 1 with st := st, att := att, fb := frameAB, exp := [0x41, 0x43, 0x4B] }

/-- An image that is Black but for the pixels given. -/
def imageWith (pixels : List (Nat × Byte)) : List Byte :=
  (List.range 224).map fun k => (pixels.lookup k).getD 0

/-- The image of V21: Red, Black, Orange, Red, then Black. -/
def imageRBOR : List Byte := imageWith [(0, 2), (2, 3), (3, 2)]

/-! ### Well-formedness: one ill-formed term for each check -/

theorem test_illFormed_refused :
    ([.openSess 256, .setcfg 256 ⟨0⟩, .setcfg 1 ⟨4294967296⟩, .esc [0x41, 0x200000],
      .plsc ⟨65536, 1, 1, 1, 0, 0, 0⟩, .plsc ⟨0, 256, 1, 1, 0, 0, 0⟩, .plsc ⟨0, 1, 256, 1, 0, 0, 0⟩,
      .plsc ⟨0, 1, 1, 256, 0, 0, 0⟩, .plsc ⟨0, 1, 1, 1, 256, 0, 0⟩, .plsc ⟨0, 1, 1, 1, 0, 256, 0⟩,
      .plsc ⟨0, 1, 1, 1, 0, 0, 256⟩, .sendsc ⟨65536, 1, 1, 1, 0, 0, 0⟩,
      .plt 0x41 ⟨65536, 1, 1, 0, 0⟩ ⟨0, 1, 1, 0, 0⟩ [], .plt 0x41 ⟨0, 256, 1, 0, 0⟩ ⟨0, 1, 1, 0, 0⟩ [],
      .plt 0x41 ⟨0, 1, 256, 0, 0⟩ ⟨0, 1, 1, 0, 0⟩ [], .plt 0x41 ⟨0, 1, 1, 256, 0⟩ ⟨0, 1, 1, 0, 0⟩ [],
      .plt 0x41 ⟨0, 1, 1, 0, 256⟩ ⟨0, 1, 1, 0, 0⟩ [], .plt 0x41 ⟨0, 1, 1, 0, 0⟩ ⟨0, 1, 1, 0, 256⟩ [],
      .sendt 0x41 ⟨0, 256, 1, 0, 0⟩ ⟨0, 1, 1, 0, 0⟩ [], .sendt 0x41 ⟨0, 1, 1, 0, 0⟩ ⟨65536, 1, 1, 0, 0⟩ [],
      .plg 0x41 256 [], .sendg 0x41 256 [], .wrap 256 [], .wrapid 256, .setid 256] : List Instr).map
      Instr.wellFormed = List.replicate 25 false := by decide

/-- The greatest operand of every width, for every operation (`10_state.md` R27). -/
theorem test_wellFormed_atTheBounds :
    ([.openSess 255, .close, .setcfg 255 ⟨4294967295⟩, .esc [0, 0x1FFFFF], .pack [0xFF],
      .plsc ⟨65535, 255, 255, 255, 255, 255, 255⟩,
      .plt 0xFF ⟨65535, 255, 255, 255, 255⟩ ⟨65535, 255, 255, 255, 255⟩ [0xFF], .plg 0xFF 255 [],
      .csum [], .wrap 255 [], .wrapid 255, .send [], .sendsc ⟨65535, 255, 255, 255, 255, 255, 255⟩,
      .sendt 0xFF ⟨65535, 255, 255, 255, 255⟩ ⟨65535, 255, 255, 255, 255⟩ [], .sendg 0xFF 255 [0xFF],
      .setid 255] : List Instr).map Instr.wellFormed = List.replicate 16 true := by decide

/-! ### Records, written out from the op codes of `30_encoding.md` R70 and the layout of log entry 1 -/

theorem test_decode_open :
    decode [0x01, 0x05] = .ok (.openSess 5) := by decide

theorem test_decode_close :
    decode [0x02] = .ok (.close) := by decide

theorem test_decode_setcfg :
    decode [0x03, 0x05, 0x00, 0x00, 0x07, 0xD0] = .ok (.setcfg 5 ⟨2000⟩) := by decide

theorem test_decode_esc :
    decode [0x10, 0x00, 0x00, 0x35, 0x00, 0x20, 0xAC] = .ok (.esc [0x35, 0x20AC]) := by decide

theorem test_decode_pack :
    decode [0x20, 0x02, 0x00, 0x03] = .ok (.pack [2, 0, 3]) := by decide

theorem test_decode_plsc :
    decode [0x30, 0x07, 0xE8, 0x05, 0x03, 0x0F, 0x0E, 0x1E, 0x2D] = .ok (.plsc ⟨2024, 5, 3, 15, 14, 30, 45⟩) := by decide

theorem test_decode_plt :
    decode [0x31, 0x41, 0x07, 0xE8, 0x01, 0x02, 0x03, 0x04, 0x07, 0xE9, 0x0C, 0x1F, 0x17, 0x3B, 0x41, 0x42] =
      .ok (.plt 0x41 ⟨2024, 1, 2, 3, 4⟩ ⟨2025, 12, 31, 23, 59⟩ [0x41, 0x42]) := by decide

theorem test_decode_plg :
    decode [0x32, 0x50, 0x08, 0x02, 0x01] = .ok (.plg 0x50 8 [2, 1]) := by decide

theorem test_decode_csum :
    decode [0x40, 0x41, 0x42] = .ok (.csum [0x41, 0x42]) := by decide

theorem test_decode_wrap :
    decode [0x41, 0x08, 0xA5, 0x0F] = .ok (.wrap 8 [0xA5, 0x0F]) := by decide

theorem test_decode_wrapid :
    decode [0x42, 0x05] = .ok (.wrapid 5) := by decide

theorem test_decode_send :
    decode [0x50, 0x41, 0x42] = .ok (.send [0x41, 0x42]) := by decide

theorem test_decode_sendsc :
    decode [0x51, 0x07, 0xE8, 0x05, 0x03, 0x0F, 0x0E, 0x1E, 0x2D] = .ok (.sendsc ⟨2024, 5, 3, 15, 14, 30, 45⟩) := by decide

theorem test_decode_sendt :
    decode [0x52, 0x41, 0x07, 0xE8, 0x01, 0x02, 0x03, 0x04, 0x07, 0xE9, 0x0C, 0x1F, 0x17, 0x3B, 0x43] =
      .ok (.sendt 0x41 ⟨2024, 1, 2, 3, 4⟩ ⟨2025, 12, 31, 23, 59⟩ [0x43]) := by decide

theorem test_decode_sendg :
    decode [0x53, 0x41, 0x01, 0x03] = .ok (.sendg 0x41 1 [3]) := by decide

theorem test_decode_setid :
    decode [0x54, 0x05] = .ok (.setid 5) := by decide

/-- What is not exactly an operation is refused by name: nothing, reserved codes next to the table's rows (R71),
missing operand bytes, bytes after the last operand. -/
theorem test_decode_refusals :
    [[], [0x00], [0x04, 1], [0x55], [0xFF], [0x01], [0x03, 1, 0, 0, 0], [0x31, 0x41], [0x10, 0, 0],
      [0x02, 0], [0x01, 1, 2, 3], [0x03, 5, 0, 0, 7, 0xD0, 9]].map decode =
    [.error .noOperation, .error (.reservedCode 0x00), .error (.reservedCode 0x04),
      .error (.reservedCode 0x55), .error (.reservedCode 0xFF), .error .truncated, .error .truncated,
      .error .truncated, .error .truncated, .error (.trailing .close [0]),
      .error (.trailing (.openSess 1) [2, 3]),
      .error (.trailing (.setcfg 5 ⟨2000⟩) [9])] := by decide

/-- A text element of more than 21 bits is handed to ESC (`10_state.md` R27: EncodingError). -/
theorem test_decode_wideElement :
    decode [0x10, 0x20, 0, 0] = .ok (.esc [0x200000]) ∧
      (Instr.esc [0x200000]).presentable = true ∧ (Instr.esc [0x1000000]).presentable = false := by decide

/-- The sixteen rows of `opcode_table.json`, operand bits 0. -/
theorem test_decodeTableWord_rows :
    [0x01, 0x02, 0x03, 0x10, 0x20, 0x30, 0x31, 0x32, 0x40, 0x41, 0x42, 0x50, 0x51, 0x52, 0x53,
      0x54].map (decodeTableWord 8) =
    [.openSess 0, .close, .setcfg 0 ⟨0⟩, .esc [], .pack [], .plsc ⟨0, 0, 0, 0, 0, 0, 0⟩,
      .plt 0 ⟨0, 0, 0, 0, 0⟩ ⟨0, 0, 0, 0, 0⟩ [], .plg 0 0 [], .csum [], .wrap 0 [], .wrapid 0, .send [],
      .sendsc ⟨0, 0, 0, 0, 0, 0, 0⟩, .sendt 0 ⟨0, 0, 0, 0, 0⟩ ⟨0, 0, 0, 0, 0⟩ [], .sendg 0 0 [],
      .setid 0].map some := by decide

/-- The op code stands in the low byte of the word, the first operand above it; a reserved code is no
operation. -/
theorem test_decodeTableWord_operands :
    decodeTableWord 16 0x0542 = some (.wrapid 5) ∧ decodeTableWord 8 0x55 = none := by decide

/-- A table word presented right after reset is what the first step runs. -/
theorem test_withFetchWord_runs :
    report (step (State.reset.withFetchWord 16 0x0542)) =
      some ((1, 0, .none), [0x3C, 0x49, 0x44, 0x3E, 0x3C, 0x30, 0x35, 0x3E, 0x3C, 0x45, 0x3E]) := by decide

/-! ### The formatters -/

theorem test_hex2 : [3, 0x8E, 0, 255].map hex2 = [[0x30, 0x33], [0x38, 0x45], [0x30, 0x30], [0x46, 0x46]] := by decide

theorem test_dec2 : [5, 24, 0, 99].map dec2 = [[0x30, 0x35], [0x32, 0x34], [0x30, 0x30], [0x39, 0x39]] := by decide

/-- The codes of `10_state.md` R11, R15, R19 and of the causes of `60_exceptions.md` R171, R175. -/
theorem test_codes :
    [Fsm.idle, .sending, .awaitingAck, .retrying, .success, .failed].map Fsm.code = [0, 1, 2, 3, 4, 5] ∧
    [ResClass.none, .ok, .validation, .encoding, .communication, .refused].map ResClass.code =
      [0, 1, 2, 3, 4, 5] ∧
    [Cause.vDevid, .vSchedule, .vPage, .vPageSchedLen, .vGPage, .vGBlock, .vImgLen, .vImgSym, .vWeekday,
      .vMonth, .vDay, .vHour, .vMinute, .vSecond, .vMaxRetry, .vPayloadLen].map Cause.code =
      [1, 2, 3, 4, 5, 6, 7, 8, 9, 10, 11, 12, 13, 14, 15, 16] ∧
    [Cause.eUnmappable, .cNoAck, .fIllegalOp, .fClosed, .fAlreadyOpen].map Cause.code =
      [1, 1, 1, 2, 3] ∧
    [Session.closed, .opened 1].map Session.code = [0, 1] := by decide

/-! ### Operations, at most two vectors each -/

/-- V110. -/
theorem test_open_binds :
    (answer (exec (.openSess 1) ready)).map (fun t => (t.sess, t.res.codes, t.hist)) =
      some (.opened 1, (1, 0, .none), []) := by decide

/-- V113. -/
theorem test_open_twice_refused :
    (answer (exec (.openSess 2) (opened 1))).map (fun t => (t.sess, t.res.codes)) =
      some (.opened 1, (5, 3, .none)) := by decide

/-- V114. -/
theorem test_close_closes :
    (answer (exec .close (opened 1))).map (fun t => (t.sess, t.res.codes, t.hist)) =
      some (.closed, (1, 0, .none), [.close]) := by decide

/-- V115. -/
theorem test_close_closed_refused :
    (answer (exec .close ready)).map (fun t => (t.res.codes, t.hist)) =
      some ((5, 2, .none), []) := by decide

/-- V117, with 2000 as the code of 2.0 s. -/
theorem test_setcfg_stores :
    (answer (exec (.setcfg 5 ⟨2000⟩) ready)).map (fun t => (t.maxRetry, t.timeout, t.res.codes)) =
      some (5, ⟨2000⟩, (1, 0, .none)) := by decide

/-- V116. -/
theorem test_setcfg_zero_invalid :
    (answer (exec (.setcfg 0 ⟨2000⟩) ready)).map (fun t => (t.maxRetry, t.timeout, t.res.codes)) =
      some (3, Config.timeoutDefault, (2, 15, .value 0)) := by decide

/-- V12, fixture. -/
theorem test_esc_tokens :
    report (exec (.esc [0x47, 0x72, 0xFC, 0xDF, 0x65]) ready) =
      some ((1, 0, .none), [0x47, 0x72, 0x3C, 0x55, 0x30, 0x38, 0x3E, 0x3C, 0x55, 0x30, 0x42, 0x3E, 0x65]) := by decide

/-- V10 (no partial output), V11, and a value of more than 21 bits (`10_state.md` R27). -/
theorem test_esc_unmappable :
    [[0xE9, 0x20AC], [0xD800], [0x200000]].map (fun x => report (exec (.esc x) ready)) =
      [some ((3, 1, .place 0 0xE9), []), some ((3, 1, .place 0 0xD800), []),
        some ((3, 1, .place 0 0x200000), [])] := by decide

/-- V21, V25 to V28 in one image: first pixels, last pixel, row 0 columns 4 and 8, row 1 column 0. -/
theorem test_pack_indices :
    ((answer (exec (.pack (imageWith [(0, 2), (2, 3), (3, 2), (4, 3), (8, 2), (32, 1), (223, 1)])) ready)).map
      fun t => (t.res.codes, t.out.length, [0, 1, 2, 3, 16, 61, 14].map (t.out[·]?))) =
      some ((1, 0, .none), 64, [some 0x8E, some 0xC0, some 0x40, some 0, some 0x80, some 0x01, some 0]) := by decide +kernel

/-- V29f: the length is checked first. -/
theorem test_pack_length_first :
    report (exec (.pack (9 :: List.replicate 222 0)) ready) = some ((2, 7, .value 223), []) := by decide +kernel

/-- V30. -/
theorem test_plsc_fields :
    report (exec (.plsc ⟨2024, 5, 3, 15, 14, 30, 45⟩) ready) =
      some ((1, 0, .none), [0x3C, 0x53, 0x43, 0x3E, 0x32, 0x34, 0x30, 0x35, 0x30, 0x33, 0x31, 0x35, 0x31, 0x34, 0x33, 0x30, 0x34, 0x35]) := by decide

/-- V35: weekday before month. -/
theorem test_plsc_first_violation :
    report (exec (.plsc ⟨2024, 8, 13, 15, 14, 30, 45⟩) ready) = some ((2, 9, .value 8), []) := by decide

/-- V40. -/
theorem test_plt_fields :
    report (exec (.plt 0x41 ⟨2024, 1, 1, 0, 0⟩ ⟨2024, 12, 31, 23, 59⟩ [0x41, 0x42, 0x43]) ready) =
      some ((1, 0, .none), [0x3C, 0x54, 0x41, 0x3E, 0x32, 0x34, 0x30, 0x31, 0x30, 0x31, 0x30, 0x30, 0x30, 0x30, 0x32, 0x34, 0x31, 0x32, 0x33, 0x31, 0x32, 0x33, 0x35, 0x39, 0x41, 0x42, 0x43]) := by decide

/-- V47: position 6 is the stop month. -/
theorem test_plt_stop_month :
    report (exec (.plt 0x41 ⟨2024, 1, 1, 0, 0⟩ ⟨2024, 13, 31, 23, 59⟩ [0x41]) ready) =
      some ((2, 10, .place 6 13), []) := by decide

/-- V50. -/
theorem test_plg_header :
    report (exec (.plg 0x41 1 imageRBOR) ready) =
      some ((1, 0, .none), [0x3C, 0x47, 0x41, 0x31, 0x3E, 0x8E] ++ List.replicate 63 0) := by decide +kernel

/-- V55: the page first. -/
theorem test_plg_page_first :
    report (exec (.plg 0x51 9 (List.replicate 10 0)) ready) = some ((2, 5, .value 0x51), []) := by decide

/-- V67. -/
theorem test_csum_clock :
    report (exec (.csum [0x3C, 0x53, 0x43, 0x3E, 0x32, 0x34, 0x30, 0x35, 0x30, 0x33, 0x31, 0x35, 0x31, 0x34, 0x33, 0x30, 0x34, 0x35])
      ready) = some ((1, 0, .none), [0x11]) := by decide

/-- V60, the empty payload. -/
theorem test_csum_empty :
    report (exec (.csum []) ready) = some ((1, 0, .none), [0x00]) := by decide

/-- V74: upper-case digits. -/
theorem test_wrap_upper_case :
    report (exec (.wrap 8 [0xA5, 0x0F]) ready) =
      some ((1, 0, .none), [0x3C, 0x49, 0x44, 0x30, 0x38, 0x3E, 0xA5, 0x0F, 0x41, 0x41, 0x3C, 0x45, 0x3E]) := by decide

/-- V77. -/
theorem test_wrap_devid :
    report (exec (.wrap 9 [0x41, 0x42]) ready) = some ((2, 1, .value 9), []) := by decide

/-- S11. -/
theorem test_wrapid_literal :
    report (exec (.wrapid 5) ready) =
      some ((1, 0, .none), [0x3C, 0x49, 0x44, 0x3E, 0x3C, 0x30, 0x35, 0x3E, 0x3C, 0x45, 0x3E]) := by decide

/-- V84. -/
theorem test_wrapid_devid :
    report (exec (.wrapid 0) ready) = some ((2, 1, .value 0), []) := by decide

/-- V90, the start. -/
theorem test_send_starts :
    (answer (exec (.send [0x41, 0x42]) (opened 1))).map (fun t => (t.st, t.fb, t.exp, t.res.codes)) =
      some (.sending, frameAB, [0x41, 0x43, 0x4B], (0, 0, .none)) := by decide

/-- V101. -/
theorem test_send_closed_refused :
    (answer (exec (.send [0x41, 0x42]) ready)).map (fun t => (t.st, t.res.codes, t.hist)) =
      some (.idle, (5, 2, .none), []) := by decide

/-- P1: the frame of 29 bytes. -/
theorem test_sendsc_frame :
    (answer (exec (.sendsc ⟨2024, 5, 3, 15, 14, 30, 45⟩) (opened 1))).map (fun t => (t.st, t.fb)) =
      some (.sending, [0x3C, 0x49, 0x44, 0x30, 0x31, 0x3E, 0x3C, 0x53, 0x43, 0x3E, 0x32, 0x34, 0x30, 0x35, 0x30, 0x33, 0x31, 0x35, 0x31, 0x34, 0x33, 0x30, 0x34, 0x35, 0x31, 0x31, 0x3C, 0x45, 0x3E]) := by decide

/-- The example of `45_transport.md` R142. -/
theorem test_sendt_frame :
    (answer (exec (.sendt 0x41 ⟨2024, 1, 1, 0, 0⟩ ⟨2024, 12, 31, 23, 59⟩ [0x41, 0x42, 0x43])
      (opened 2))).map (fun t => (t.st, t.fb)) =
      some (.sending, [0x3C, 0x49, 0x44, 0x30, 0x32, 0x3E, 0x3C, 0x54, 0x41, 0x3E, 0x32, 0x34, 0x30, 0x31, 0x30, 0x31, 0x30, 0x30, 0x30, 0x30, 0x32, 0x34, 0x31, 0x32, 0x33, 0x31, 0x32, 0x33, 0x35, 0x39, 0x41, 0x42, 0x43, 0x35, 0x42, 0x3C, 0x45, 0x3E]) := by decide

/-- P2: the frame of 80 bytes. -/
theorem test_sendg_frame :
    (answer (exec (.sendg 0x41 1 imageRBOR) (opened 2))).map (fun t => (t.st, t.fb)) =
      some (.sending, [0x3C, 0x49, 0x44, 0x30, 0x32, 0x3E] ++ [0x3C, 0x47, 0x41, 0x31, 0x3E, 0x8E] ++
        List.replicate 63 0 ++ [0x42, 0x42, 0x3C, 0x45, 0x3E]) := by decide +kernel

/-- V103: the session before the operands. -/
theorem test_sendg_session_first :
    (answer (exec (.sendg 0x51 1 (List.replicate 223 0)) ready)).map (fun t => (t.st, t.res.codes)) =
      some (.idle, (5, 2, .none)) := by decide

/-- S11, the start: the echo is the token and DEVID stands. -/
theorem test_setid_starts :
    (answer (exec (.setid 5) (opened 1))).map (fun t => (t.st, t.fb, t.exp, t.devid)) =
      some (.sending, [0x3C, 0x49, 0x44, 0x3E, 0x3C, 0x30, 0x35, 0x3E, 0x3C, 0x45, 0x3E], [0x30, 0x35], some 1) := by decide

/-- V100. -/
theorem test_setid_devid :
    (answer (exec (.setid 9) (opened 1))).map (fun t => (t.st, t.res.codes, t.devid)) =
      some (.idle, (2, 1, .value 9), some 1) := by decide

/-! ### The send machine, one transition each -/

/-- V90: a match ends the send with nothing drained. -/
theorem test_await_match :
    (answer (step { sendingAB .awaitingAck 1 with script := [[0x41, 0x43, 0x4B], [0x58]] })).map
      (fun t => (t.res.codes, t.hist, t.script)) =
      some ((1, 0, .value 1), [.read 3 Config.timeoutDefault [0x41, 0x43, 0x4B]], [[0x58]]) := by decide

/-- V92, second attempt: a partial read is a mismatch; the drain is logged. -/
theorem test_await_partial :
    (answer (step { sendingAB .awaitingAck 2 with script := [[0x41, 0x43], [0x4B]] })).map
      (fun t => (t.st, t.log, t.hist)) =
      some (.retrying, [([0x41, 0x43], [0x4B])],
        [.read 3 Config.timeoutDefault [0x41, 0x43], .read 1000 Config.timeoutDefault [0x4B]]) := by decide

/-- V97: the echo updates DEVID. -/
theorem test_await_setid :
    (answer (step { opened 1 with
        st := .awaitingAck, att := 1, fb := [0x3C, 0x49, 0x44, 0x3E, 0x3C, 0x30, 0x35, 0x3E, 0x3C, 0x45, 0x3E], exp := [0x30, 0x35], newId := some 5,
        script := [[0x30, 0x35]] })).map (fun t => (t.st, t.devid)) = some (.success, some 5) := by decide

/-- V93, the end: Failed after the third attempt, FB readable. -/
theorem test_retry_fails :
    (answer (step (sendingAB .retrying 3))).map (fun t => (t.st, t.res.codes, t.fb)) =
      some (.failed, (4, 1, .value 3), frameAB) := by decide

/-- V118: a reserved code. -/
theorem test_reserved_refused :
    (answer (step { opened 1 with pending := [[0x55]] })).map (fun t => (t.res.codes, t.sess, t.hist)) =
      some ((5, 1, .value 0x55), .opened 1, []) := by decide

/-- V86: by position, not by searching. -/
theorem test_unframe_positional :
    unframe [0x3C, 0x49, 0x44, 0x30, 0x33, 0x3E, 0x3C, 0x45, 0x3E, 0x34, 0x37, 0x3C, 0x45, 0x3E] = some (3, [0x3C, 0x45, 0x3E], 0x47) := by decide

/-- A record without its operand waits (log entry 3); a reset during a send is refused (`70_reset_and_hazards.md`
R191). -/
theorem test_steps_that_do_nothing :
    (answer (step { opened 1 with pending := [[0x01]] })).map (fun t => (t.pending, t.res.codes)) =
      some ([[0x01]], (0, 0, .none)) ∧
    answer (step { sendingAB .sending 0 with resetReq := true }) = none := by decide

/-- Bytes after the last operand do not stop the operation (log entry 3). -/
theorem test_extra_bytes_run :
    (answer (step { opened 1 with pending := [[0x02, 0x00]] })).map (fun t => (t.sess, t.hist)) =
      some (.closed, [.close]) := by decide

/-! ### Witnesses: for each statement with hypotheses, inputs that meet them -/

/-- SUBST_T meets W1 to W5 (`41_character_encoder.md` R82). -/
theorem witness_substT_wf : substT.Wf := by decide

/-- No key of SUBST_T is a surrogate or above 0x10FFFF. -/
theorem witness_substT_scalarKeys : substT.ScalarKeys := by decide

theorem witness_DecodeEncodeGivesOperationBack :
    (Instr.esc [0x1FFFFF]).wellFormed = true ∧ (Instr.esc [0xFFFFFF]).presentable = true ∧ (Instr.setcfg 255 ⟨4294967295⟩).wellFormed = true := by
  decide

theorem witness_DecodedRecordIsItsEncoding : decode [0x54, 0xFF] = .ok (.setid 255) := by decide

theorem witness_ReservedCodeIsRefused :
    let s : State := { ready with pending := [[0x55, 0x01], [0x02]] }
    s.resetReq = false ∧ s.portReady = true ∧ s.pending = (0x55 :: [0x01]) :: [[0x02]] ∧
      (0x55 : Byte).toNat ∉ [0x01, 0x02, 0x03, 0x10, 0x20, 0x30, 0x31, 0x32, 0x40, 0x41, 0x42, 0x50, 0x51,
        0x52, 0x53, 0x54] := by decide

theorem witness_StepRunsDecodedOperation :
    let s : State := { ready with pending := [[0x01, 0x08]] }
    s.resetReq = false ∧ s.portReady = true ∧ s.pending = [0x01, 0x08] :: [] ∧
      decode [0x01, 0x08] = .ok (.openSess 8) := by decide

/-- For the statements about a busy port: one state for each busy value of ST. -/
theorem witness_busyPort :
    [Fsm.sending, .awaitingAck, .retrying].map
      (fun st => ((sendingAB st 1).resetReq, (sendingAB st 1).portReady)) =
      List.replicate 3 (false, false) := by decide

theorem witness_IdleBlockStays :
    ready.resetReq = false ∧ ready.portReady = true ∧ ready.pending = [] ∧
      ({ ready with pending := [[0x41]] } : State).pending = [0x41] :: [] ∧
      decode [0x41] = .error .truncated := by decide

theorem witness_ResetInputRestoresRegisters :
    (sendingAB .failed 3).assertReset.resetReq = true ∧
      (sendingAB .failed 3).assertReset.portReady = true := by decide

theorem witness_ResetDuringSendHasNoStep :
    (sendingAB .sending 1).assertReset.resetReq = true ∧
      (sendingAB .sending 1).assertReset.portReady = false := by decide

/-- Device IDs at the bounds, in a closed and in an open session, at a ready port. -/
theorem witness_OpenFollowsItsRule :
    ready.portReady = true ∧ ready.sess = .closed ∧ (1 ≤ 1 ∧ 1 ≤ 8) ∧ (1 ≤ 8 ∧ 8 ≤ 8) ∧
      (0 < 1 ∨ 8 < 0) ∧ (9 < 1 ∨ 8 < 9) ∧ (opened 8).portReady = true ∧ (opened 8).sess ≠ .closed := by
  decide

theorem witness_CloseFollowsItsRule :
    (opened 8).portReady = true ∧ (opened 8).sess ≠ .closed ∧ ready.portReady = true ∧
      ready.sess = .closed := by decide

theorem witness_SetcfgFollowsItsRule :
    ready.portReady = true ∧ (1 ≤ 1 ∧ 1 ≤ 255) ∧ (1 ≤ 255 ∧ 255 ≤ 255) ∧ 0 = 0 := by decide

/-- First clause: a text with a key, the last encodable code point and code point 0. -/
theorem witness_EscFollowsItsRule_mapped :
    ready.portReady = true ∧ (ready.subst.map Prod.fst).Pairwise (· < ·) ∧
      List.Forall₂ (PointBytes ready.subst) [0x20AC, 0x7F, 0] [euroToken, [0x7F], [0]] := by
  refine ⟨rfl, by decide, ?_⟩
  exact .cons (.inl (by decide)) (.cons (.inr (by decide)) (.cons (.inr (by decide)) .nil))

/-- Second clause: `"café"` (S9), and U+0080. -/
theorem witness_EscFollowsItsRule_unmappable :
    ([0x63, 0x61, 0x66, 0xE9] : List Nat) = [0x63, 0x61, 0x66] ++ 0xE9 :: [] ∧
      (∀ x ∈ [0x63, 0x61, 0x66], Mappable ready.subst x) ∧ ¬ Mappable ready.subst 0xE9 ∧
      ¬ Mappable ready.subst 0x80 := by decide

theorem witness_EuroBecomesItsToken : ready.portReady = true ∧ ready.subst.Wf := by decide

theorem witness_EscOutputLength :
    ready.portReady = true ∧ ready.subst.Wf ∧
      ∃ t, exec (.esc [0x35, 0x20AC]) ready = .next t ∧ t.res.cls = .ok :=
  ⟨rfl, by decide, _, rfl, by decide⟩

theorem all_image_legal : AllInDomain (imageFields (List.replicate 224 3)) := by decide +kernel

theorem witness_PackFollowsItsRule :
    ready.portReady = true ∧ AllInDomain (imageFields (List.replicate 224 3)) ∧
      FirstViolation (imageFields [9]) ⟨.validation, .vImgLen, .value 1⟩ ∧
      FirstViolation (imageFields (imageWith [(223, 4)])) ⟨.validation, .vImgSym, .place 223 4⟩ := by
  refine ⟨rfl, all_image_legal, ⟨[], _, _, rfl, by decide, by decide, rfl⟩, ?_⟩
  exact ⟨(imageFields (imageWith [(223, 4)])).take 224, ⟨4, 0, 3, .vImgSym, .place 223 4⟩, [],
    by decide +kernel, by decide +kernel, by decide, rfl⟩

theorem witness_PackIsBijective :
    AllInDomain (imageFields (List.replicate 224 3)) ∧ (pack (List.replicate 224 3)).length = 64 ∧
      (∀ i ∈ paddingIndices, (pack (List.replicate 224 3))[i]? = some 0) :=
  ⟨all_image_legal, by decide +kernel, by decide +kernel⟩

/-- Clock operands at both bounds, and the first violation at each of the six. -/
theorem witness_PlscFollowsItsRule :
    ready.portReady = true ∧ AllInDomain (clockFields ⟨0, 1, 1, 1, 0, 0, 0⟩) ∧
      AllInDomain (clockFields ⟨65535, 7, 12, 31, 23, 59, 59⟩) ∧
      FirstViolation (clockFields ⟨0, 8, 13, 1, 0, 0, 0⟩) ⟨.validation, .vWeekday, .value 8⟩ ∧
      FirstViolation (clockFields ⟨0, 7, 12, 31, 23, 59, 60⟩) ⟨.validation, .vSecond, .value 60⟩ :=
  ⟨rfl, by decide, by decide, ⟨[], _, _, rfl, by decide, by decide, rfl⟩,
    ⟨(clockFields ⟨0, 7, 12, 31, 23, 59, 60⟩).take 5, _, [], rfl, by decide, by decide, rfl⟩⟩

/-- Schedule operands at their bounds (no page, 31 pages), and a bad length and a bad page. -/
theorem witness_PltFollowsItsRule :
    ready.portReady = true ∧
      AllInDomain (scheduleFields 0x41 ⟨0, 1, 1, 0, 0⟩ ⟨65535, 12, 31, 23, 59⟩ []) ∧
      AllInDomain (scheduleFields 0x45 ⟨0, 1, 1, 0, 0⟩ ⟨0, 1, 1, 0, 0⟩ (List.replicate 31 0x45)) ∧
      FirstViolation (scheduleFields 0x41 ⟨0, 1, 1, 0, 0⟩ ⟨0, 1, 1, 0, 0⟩ (List.replicate 32 0x46))
        ⟨.validation, .vPageSchedLen, .value 32⟩ ∧
      FirstViolation (scheduleFields 0x41 ⟨0, 1, 1, 0, 0⟩ ⟨0, 1, 1, 0, 0⟩ [0x41, 0x46])
        ⟨.validation, .vPage, .place 1 0x46⟩ :=
  ⟨rfl, by decide, by decide +kernel,
    ⟨(scheduleFields 0x41 ⟨0, 1, 1, 0, 0⟩ ⟨0, 1, 1, 0, 0⟩ []).take 9, _, _, rfl, by decide, by decide,
      rfl⟩,
    ⟨(scheduleFields 0x41 ⟨0, 1, 1, 0, 0⟩ ⟨0, 1, 1, 0, 0⟩ [0x41, 0x46]).take 11, _, [], rfl, by decide,
      by decide, rfl⟩⟩

theorem witness_PlgFollowsItsRule :
    ready.portReady = true ∧ AllInDomain (graphicsFields 0x50 8 (List.replicate 224 3)) ∧
      AllInDomain (graphicsFields 0x41 1 (List.replicate 224 0)) ∧
      FirstViolation (graphicsFields 0x51 9 []) ⟨.validation, .vGPage, .value 0x51⟩ ∧
      FirstViolation (graphicsFields 0x41 9 []) ⟨.validation, .vGBlock, .value 9⟩ :=
  ⟨rfl, by decide +kernel, by decide +kernel, ⟨[], _, _, rfl, by decide, by decide, rfl⟩,
    ⟨(graphicsFields 0x41 9 []).take 1, _, _, rfl, by decide, by decide, rfl⟩⟩

/-- A payload of 69 bytes is within PAYLOAD_MAX, whatever it is (`00_scope.md` R5). -/
theorem witness_within69 : WithinPayloadMax (List.replicate 69 0xFF) := by
  intro m h
  unfold Config.payloadMax at h
  split at h
  · cases h
  · simp only [Option.some.injEq] at h
    simp only [List.length_replicate]
    omega

theorem witness_withinAB : WithinPayloadMax [0x41, 0x42] := by
  intro m h
  unfold Config.payloadMax at h
  split at h
  · cases h
  · simp only [Option.some.injEq] at h
    simp only [List.length_cons, List.length_nil]
    omega

theorem witness_CsumFollowsItsRule :
    ready.portReady = true ∧ WithinPayloadMax (List.replicate 69 0xFF) := ⟨rfl, witness_within69⟩

theorem witness_ChecksumLaws : ([0x41, 0x42] : List Byte).Perm [0x42, 0x41] := by decide

theorem witness_WrapFollowsItsRule :
    ready.portReady = true ∧ (1 ≤ 1 ∧ 1 ≤ 8) ∧ (1 ≤ 8 ∧ 8 ≤ 8) ∧
      WithinPayloadMax (List.replicate 69 0xFF) ∧ (0 < 1 ∨ 8 < 0) ∧ (9 < 1 ∨ 8 < 9) :=
  ⟨rfl, by decide, by decide, witness_within69, by decide, by decide⟩

/-- For FrameLayout and UnframeRecoversFrame: the first and the last legal device ID. -/
theorem witness_legalIds : (1 ≤ 1 ∧ 1 ≤ 8) ∧ (1 ≤ 8 ∧ 8 ≤ 8) := by decide

theorem witness_WrapidFollowsItsRule :
    ready.portReady = true ∧ (1 ≤ 8 ∧ 8 ≤ 8) ∧ (0 < 1 ∨ 8 < 0) ∧ (9 < 1 ∨ 8 < 9) := by decide

theorem witness_HexDigitsSpellTheByte : 0 < 256 ∧ 255 < 256 := by decide

theorem witness_PayloadMaxAdmitsGraphicsBlock : (List.replicate 69 (0xFF : Byte)).length ≤ 69 := by decide

theorem witness_SendStartsOrStops :
    (opened 8).portReady = true ∧ (opened 8).devid = some 8 ∧ WithinPayloadMax [0x41, 0x42] ∧
      ready.portReady = true ∧ ready.sess = .closed := ⟨rfl, rfl, witness_withinAB, rfl, rfl⟩

theorem witness_SendscStartsOrStops :
    (opened 1).portReady = true ∧ (opened 1).devid = some 1 ∧
      AllInDomain (clockFields ⟨2024, 7, 12, 31, 23, 59, 59⟩) ∧
      FirstViolation (clockFields ⟨0, 0, 1, 1, 0, 0, 0⟩) ⟨.validation, .vWeekday, .value 0⟩ ∧
      ready.sess = .closed :=
  ⟨rfl, rfl, by decide, ⟨[], _, _, rfl, by decide, by decide, rfl⟩, rfl⟩

theorem witness_SendtStartsOrStops :
    (opened 1).portReady = true ∧ (opened 1).devid = some 1 ∧
      AllInDomain (scheduleFields 0x45 ⟨0, 1, 1, 0, 0⟩ ⟨0, 12, 31, 23, 59⟩ [0x41, 0x45]) ∧
      FirstViolation (scheduleFields 0x46 ⟨0, 1, 1, 0, 0⟩ ⟨0, 1, 1, 0, 0⟩ [])
        ⟨.validation, .vSchedule, .value 0x46⟩ ∧ ready.sess = .closed :=
  ⟨rfl, rfl, by decide, ⟨[], _, _, rfl, by decide, by decide, rfl⟩, rfl⟩

theorem witness_SendgStartsOrStops :
    (opened 1).portReady = true ∧ (opened 1).devid = some 1 ∧
      AllInDomain (graphicsFields 0x50 8 (List.replicate 224 3)) ∧
      FirstViolation (graphicsFields 0x50 0 []) ⟨.validation, .vGBlock, .value 0⟩ ∧
      ready.sess = .closed :=
  ⟨rfl, rfl, by decide +kernel,
    ⟨(graphicsFields 0x50 0 []).take 1, _, _, rfl, by decide, by decide, rfl⟩, rfl⟩

theorem witness_SetidStartsOrStops :
    (opened 1).portReady = true ∧ (opened 1).devid = some 1 ∧ (1 ≤ 8 ∧ 8 ≤ 8) ∧ (0 < 1 ∨ 8 < 0) ∧
      (9 < 1 ∨ 8 < 9) ∧ ready.sess = .closed := by decide

/-- For SendingWritesWholeFrame and MachineEqualsProcedure. -/
theorem witness_sending :
    (sendingAB .sending 2).resetReq = false ∧ (sendingAB .sending 2).st = .sending ∧
      (sendingAB .sending 2).att < (sendingAB .sending 2).maxRetry := by decide

/-- Both clauses of AwaitingAckMatchesOrDrains, with scripts of one answer and of two. -/
theorem witness_AwaitingAckMatchesOrDrains :
    let s : State := { sendingAB .awaitingAck 1 with script := [[0x41, 0x43, 0x4B]] }
    let m : State := { sendingAB .awaitingAck 1 with script := [[0x41, 0x43], [0x4B]] }
    s.resetReq = false ∧ s.st = .awaitingAck ∧ s.script = [0x41, 0x43, 0x4B] :: [] ∧
      [0x41, 0x43, 0x4B].take s.exp.length = s.exp ∧
      m.resetReq = false ∧ m.st = .awaitingAck ∧ m.script = [0x41, 0x43] :: [0x4B] :: [] ∧
      [0x41, 0x43].take m.exp.length ≠ m.exp := by decide

theorem witness_RetryingCountsAttempts :
    (sendingAB .retrying 2).resetReq = false ∧ (sendingAB .retrying 2).st = .retrying ∧
      (sendingAB .retrying 2).att < (sendingAB .retrying 2).maxRetry ∧
      (sendingAB .retrying 3).st = .retrying ∧
      (sendingAB .retrying 3).maxRetry ≤ (sendingAB .retrying 3).att := by decide

/-- V92: two attempts fail, the third is acknowledged. -/
theorem witness_SendSucceedsAtMatchingAttempt :
    let misses : List (List Byte × List Byte) := [([], []), ([0x41, 0x43], [0x4B])]
    let s : State := { opened 1 with script := [[], [], [0x41, 0x43], [0x4B], [0x41, 0x43, 0x4B], [0x58]] }
    s.portReady = true ∧ s.resetReq = false ∧ s.devid = some 1 ∧
      SendsFrame 1 (.send [0x41, 0x42]) frameAB [0x41, 0x43, 0x4B] ∧ misses.length < s.maxRetry ∧
      AllMiss [0x41, 0x43, 0x4B] misses ∧
      [0x41, 0x43, 0x4B].take ([0x41, 0x43, 0x4B] : List Byte).length = ([0x41, 0x43, 0x4B] : List Byte) ∧
      s.script = missScript misses ++ [0x41, 0x43, 0x4B] :: [[0x58]] :=
  ⟨rfl, rfl, rfl, ⟨witness_withinAB, by decide, rfl⟩, by decide, by decide, rfl, rfl⟩

/-- V98: a SETID answered `"ACK"` three times. -/
theorem witness_SendFailsAfterMaxRetryAttempts :
    let misses : List (List Byte × List Byte) := List.replicate 3 ([0x41, 0x43, 0x4B], [0x4B])
    let s : State := { opened 1 with script := missScript misses }
    s.portReady = true ∧ s.resetReq = false ∧ s.devid = some 1 ∧
      SendsFrame 1 (.setid 5) [0x3C, 0x49, 0x44, 0x3E, 0x3C, 0x30, 0x35, 0x3E, 0x3C, 0x45, 0x3E]
        [0x30, 0x35] ∧ 1 ≤ s.maxRetry ∧ misses.length = s.maxRetry ∧ AllMiss [0x30, 0x35] misses ∧
      s.script = missScript misses ++ [] :=
  ⟨rfl, rfl, rfl, ⟨by decide, by decide, by decide, by decide⟩, by decide, rfl, by decide, by decide⟩

/-- The operands of the other sending operations, for the two statements about whole sends. -/
theorem witness_sendsFrame_built :
    SendsFrame 1 (.sendsc ⟨2024, 5, 3, 15, 14, 30, 45⟩) [0x3C, 0x49, 0x44, 0x30, 0x31, 0x3E, 0x3C, 0x53, 0x43, 0x3E, 0x32, 0x34, 0x30, 0x35, 0x30, 0x33, 0x31, 0x35, 0x31, 0x34, 0x33, 0x30, 0x34, 0x35, 0x31, 0x31, 0x3C, 0x45, 0x3E]
        [0x41, 0x43, 0x4B] ∧
      SendsFrame 2 (.sendt 0x41 ⟨2024, 1, 1, 0, 0⟩ ⟨2024, 12, 31, 23, 59⟩ [0x41, 0x42, 0x43])
        [0x3C, 0x49, 0x44, 0x30, 0x32, 0x3E, 0x3C, 0x54, 0x41, 0x3E, 0x32, 0x34, 0x30, 0x31, 0x30, 0x31, 0x30, 0x30, 0x30, 0x30, 0x32, 0x34, 0x31, 0x32, 0x33, 0x31, 0x32, 0x33, 0x35, 0x39, 0x41, 0x42, 0x43, 0x35, 0x42, 0x3C, 0x45, 0x3E]
        [0x41, 0x43, 0x4B] ∧
      SendsFrame 2 (.sendg 0x41 1 imageRBOR) (frame 2 (graphicsBytes 0x41 1 imageRBOR))
        [0x41, 0x43, 0x4B] :=
  ⟨⟨by decide, by decide, rfl⟩, ⟨by decide, by decide, rfl⟩, ⟨by decide +kernel, rfl, rfl⟩⟩

theorem witness_FrameIsSnapshot :
    (sendingAB .sending 1).portReady = false ∧ ∃ t, step (sendingAB .sending 1) = .next t :=
  ⟨rfl, _, rfl⟩

/-- A block in the middle of the send of V90 meets the invariant, and takes a step. -/
theorem witness_EveryStepKeepsInvariant :
    (sendingAB .sending 2).Inv ∧ ∃ t, step (sendingAB .sending 2) = .next t := by
  refine ⟨?_, _, rfl⟩
  exact
    { devid := by intro d h; cases h; decide
      maxRetry := by decide
      att := by decide
      subst := witness_substT_wf
      substKeys := witness_substT_scalarKeys
      idle := by decide
      sendOpen := fun _ => ⟨rfl, rfl, .inl ⟨1, [0x41, 0x42], rfl, rfl, by decide, rfl⟩⟩
      busyRes := fun _ => rfl
      sending := by decide
      written := by decide
      success := by decide
      failed := by decide
      outOk := fun _ => rfl
      released := by decide
      events := by intro e he; cases he }

/-- For OutcomeIgnoresEarlierResults: after a failed send the port is ready and another outcome stands. -/
theorem witness_OutcomeIgnoresEarlierResults :
    (opened 1).portReady = true ∧ (Fsm.failed = .idle ∨ Fsm.failed = .success ∨ Fsm.failed = .failed) := by
  decide

/-- For ErrorsArePrecise, one operation for each error class. -/
theorem witness_ErrorsArePrecise :
    ready.portReady = true ∧
      (∃ t, exec (.openSess 9) ready = .next t ∧ t.res.cls = .validation) ∧
      (∃ t, exec (.esc [0x80]) ready = .next t ∧ t.res.cls = .encoding) ∧
      (∃ t, exec .close ready = .next t ∧ t.res.cls = .refused) :=
  ⟨rfl, ⟨_, rfl, by decide⟩, ⟨_, rfl, by decide⟩, ⟨_, rfl, by decide⟩⟩

theorem witness_EveryOperationReportsItsResult :
    (opened 1).portReady = true ∧ ∃ t, exec (.setid 5) (opened 1) = .next t := ⟨rfl, _, rfl⟩

theorem witness_PureOperationsFrame :
    ready.portReady = true ∧ isPure (.wrapid 5) = true ∧ ∃ t, exec (.wrapid 5) ready = .next t :=
  ⟨rfl, rfl, _, rfl⟩

theorem witness_OnlyCloseTouchesChannelAtAcceptance :
    (∃ t, exec .close (opened 1) = .next t) ∧ ∃ t, exec (.send []) (opened 1) = .next t :=
  ⟨⟨_, rfl⟩, _, rfl⟩

/-- Each clause of ControlRegisterWriters: SETCFG changes MAXRETRY, OPEN and a confirmed SETID change DEVID. -/
theorem witness_ControlRegisterWriters :
    let a : State := { ready with pending := [[0x03, 5, 0, 0, 0, 0]] }
    let b : State := { ready with pending := [[0x01, 8]] }
    let c : State := { opened 1 with
      st := .awaitingAck, att := 1, exp := [0x30, 0x35], newId := some 5, script := [[0x30, 0x35]] }
    (a.resetReq = false ∧ ∃ t, step a = .next t ∧ t.maxRetry ≠ a.maxRetry) ∧
    (b.resetReq = false ∧ ∃ t, step b = .next t ∧ t.sess ≠ b.sess) ∧
    (c.resetReq = false ∧ ∃ t, step c = .next t ∧ t.sess ≠ c.sess) :=
  ⟨⟨rfl, _, rfl, by decide⟩, ⟨rfl, _, rfl, by decide⟩, ⟨rfl, _, rfl, by decide⟩⟩

theorem witness_WrapGivesTheFrameSendWrites :
    (opened 8).portReady = true ∧ (opened 8).devid = some 8 ∧ 1 ≤ 8 ∧ 8 ≤ 8 ∧
      WithinPayloadMax [0x41, 0x42] := ⟨rfl, rfl, by decide, by decide, witness_withinAB⟩

theorem witness_InstancesShareNothing :
    (∃ system', systemStep 1 [opened 1, sendingAB .sending 0] = .next system') ∧ (0 : Nat) ≠ 1 :=
  ⟨⟨_, rfl⟩, by decide⟩

theorem witness_OperationWithExtraBytesRuns :
    let s : State := { ready with pending := [[0x01, 0x08, 0xAA], [0x02]] }
    s.resetReq = false ∧ s.portReady = true ∧ s.pending = [0x01, 0x08, 0xAA] :: [[0x02]] ∧
      decode [0x01, 0x08, 0xAA] = .error (.trailing (.openSess 8) [0xAA]) := by decide

/-- The bounds of both clauses: the first and last surrogate, the first number above 0x10FFFF. -/
theorem witness_EscRejectsNonScalars :
    ready.portReady = true ∧ ready.subst.ScalarKeys ∧
      (∀ x ∈ [0x20AC, 0x7F], Mappable ready.subst x) ∧ (0xD800 ≤ 0xD800 ∧ 0xD800 ≤ 0xDFFF) ∧
      (0xD800 ≤ 0xDFFF ∧ 0xDFFF ≤ 0xDFFF) ∧ 0x10FFFF < 0x110000 := by decide

/-- For ChannelIsAnOracle: a drain answered with 1000 bytes. -/
theorem witness_ChannelIsAnOracle :
    (List.replicate 1000 (0 : Byte)).length ≤ 1000 ∧
      ∃ t, step (sendingAB .awaitingAck 1) = .next t := ⟨List.length_replicate.le, _, rfl⟩

end Sys2Proof.Tests
end

namespace Sys2Proof.Machine

/-- Settles O31: a finite PAYLOAD_MAX is never below 69 (`00_scope.md` R5). -/
theorem payloadMaxAdmitsGraphicsBlock : Obligations.PayloadMaxAdmitsGraphicsBlock :=
  fun _ hlen _ hmax => hlen.trans (payloadMax_ge hmax)

end Sys2Proof.Machine

namespace Sys2Proof.Machine

/-! ### The invariant and the state's operations

Each operation of the state keeps `State.Inv` under the hypotheses the block meets where it is used. -/

section

variable {s t : State}

/-! #### FB, EXP and the held operand of a send -/

/-- FB of a send is a frame the block may write (`44_frame_codec.md` R122, R124). -/
theorem SendRegisters.legalFrame (hreg : SendRegisters s) (h : s.Inv) : LegalFrame s.fb := by
  obtain ⟨d, p, hd, -, hfb, -⟩ | ⟨n, h1, h8, hfb, -, -⟩ := hreg
  · exact .inl ⟨d, p, (h.devid d hd).1, (h.devid d hd).2, hfb⟩
  · exact .inr ⟨n, h1, h8, hfb⟩

/-- EXP of a send has 2 or 3 bytes (`20_memory.md` R34). -/
theorem SendRegisters.exp_length (hreg : SendRegisters s) : s.exp.length = 2 ∨ s.exp.length = 3 := by
  obtain ⟨_, _, _, _, _, hexp⟩ | ⟨_, _, _, _, hexp, _⟩ := hreg
  · exact .inr (by rw [hexp, ackToken_length])
  · exact .inl (by rw [hexp, hex2_length])

/-- The held operand of a busy block is the ID of the ID-set frame in FB. -/
theorem SendRegisters.newId_legal (hreg : SendRegisters s) (hbusy : s.portReady = false) {n : Nat}
    (hn : s.newId = some n) : 1 ≤ n ∧ n ≤ 8 := by
  obtain ⟨_, _, _, hnone, _, _⟩ | ⟨m, h1, h8, _, _, hm | ⟨hready, _⟩⟩ := hreg
  · simp [hnone] at hn
  · obtain rfl : m = n := by simpa [hm] using hn
    exact ⟨h1, h8⟩
  · simp [hbusy] at hready

/-- The registers of a send stand while it runs on. -/
theorem SendRegisters.of_same (hreg : SendRegisters s) (hsess : t.sess = s.sess)
    (hnew : t.newId = s.newId) (hfb : t.fb = s.fb) (hexp : t.exp = s.exp)
    (hport : t.portReady = s.portReady) : SendRegisters t := by
  have hdevid : t.devid = s.devid := by simp only [State.devid, hsess]
  simpa only [SendRegisters, hdevid, hnew, hfb, hexp, hport] using hreg

/-- The registers of a send stand after its end, when the held operand is released. -/
theorem SendRegisters.ended (hreg : SendRegisters s) (hready : t.portReady = true)
    (hnew : t.newId = none) (hfb : t.fb = s.fb) (hexp : t.exp = s.exp)
    (hdevid : s.newId = none → t.devid = s.devid) : SendRegisters t := by
  obtain ⟨d, p, hd, hn, hf, hx⟩ | ⟨n, h1, h8, hf, hx, -⟩ := hreg
  · exact .inl ⟨d, p, (hdevid hn).trans hd, hnew, hfb.trans hf, hexp.trans hx⟩
  · exact .inr ⟨n, h1, h8, hfb.trans hf, hexp.trans hx, .inr ⟨hready, hnew⟩⟩

/-! #### The channel -/

theorem legalEvents_append {hist : List ChEvent} {e : ChEvent} (h : ∀ e ∈ hist, LegalEvent e)
    (he : LegalEvent e) : ∀ x ∈ hist ++ [e], LegalEvent x :=
  List.forall_mem_append.2 ⟨h, List.forall_mem_singleton.2 he⟩

theorem State.Inv.chWrite {b : List Byte} (h : s.Inv) (hb : LegalFrame b) : (s.chWrite b).Inv :=
  { h with events := legalEvents_append h.events hb }

theorem State.Inv.chRead {m : Nat} (h : s.Inv) (hm : m = 2 ∨ m = 3 ∨ m = 1000) :
    (s.chRead m).Inv :=
  { h with events := legalEvents_append h.events ⟨hm, chAnswer_length_le m s⟩ }

theorem State.Inv.chClose (h : s.Inv) : s.chClose.Inv :=
  { h with events := legalEvents_append h.events trivial }

theorem State.Inv.logEvent (h : s.Inv) (r g : List Byte) : (s.logEvent r g).Inv := { h with }

/-! #### Reset and acceptance -/

/-- The block is idle and has sent nothing, and its table meets W1 to W5 and R83 (g) whatever the open entries
are. -/
theorem State.Inv.reset : State.reset.Inv where
  devid := nofun
  maxRetry := by decide
  att := by decide
  subst := Config.substTable_wf
  substKeys := Config.substTable_scalarKeys
  idle _ := ⟨rfl, rfl, rfl, nofun⟩
  sendOpen := absurd rfl
  busyRes := nofun
  sending := nofun
  written := by simp [State.reset]
  success := nofun
  failed := nofun
  outOk _ := rfl
  released _ := ⟨rfl, rfl, rfl, rfl⟩
  events := nofun

theorem State.Inv.resetRegisters (h : s.Inv) : s.resetRegisters.Inv :=
  { State.Inv.reset with subst := h.subst, substKeys := h.substKeys, events := h.events }

theorem State.Inv.takeRecord (h : s.Inv) (extra : List Byte) : (s.takeRecord extra).Inv :=
  { h with }

theorem State.Inv.accept (h : s.Inv) : s.accept.Inv :=
  { h with
    att := Nat.zero_le _
    idle := fun _ => ⟨rfl, rfl, rfl, nofun⟩
    sendOpen := absurd rfl
    busyRes := nofun
    sending := nofun
    written := by simp
    success := nofun
    failed := nofun
    outOk := fun _ => rfl
    released := fun _ => ⟨rfl, rfl, rfl, rfl⟩ }

/-! #### The end of an operation that does not send -/

/-- An idle block keeps the invariant when an operation ends with a result that is no CommunicationError and
with bytes only under OK (`60_exceptions.md` R179). -/
theorem State.Inv.settle (h : s.Inv) (hidle : s.st = .idle) {r : Res} {out : List Byte}
    (hr : r.cls ≠ .communication) (hout : r.cls ≠ .ok → out = []) :
    ({ s.releaseBuffers with res := r, out := out } : State).Inv := by
  obtain ⟨hatt, hfb, hexp, -⟩ := h.idle hidle
  have notBusy : s.portReady ≠ false := by simp [State.portReady, hidle]
  exact { h with
    idle := fun _ => ⟨hatt, hfb, hexp, hr⟩
    sendOpen := fun hst => absurd hidle hst
    busyRes := fun hbusy => absurd hbusy notBusy
    success := fun hst => nomatch hidle.symm.trans hst
    failed := fun hst => nomatch hidle.symm.trans hst
    outOk := hout
    released := fun _ => ⟨rfl, rfl, rfl, rfl⟩ }

theorem State.Inv.raise (h : s.Inv) (hidle : s.st = .idle) {r : Res} (hr : IsError r) :
    (s.raise r).Inv :=
  h.settle hidle (by rcases hr with hr | hr | hr <;> simp [hr]) fun _ => rfl

theorem State.Inv.complete (h : s.Inv) (hidle : s.st = .idle) (out : List Byte) :
    (s.complete out).Inv :=
  h.settle hidle nofun (absurd rfl)

/-! #### The control registers of an idle block -/

theorem State.Inv.setSess (h : s.Inv) (hidle : s.st = .idle) {sess : Session}
    (hs : ∀ d, sess = .opened d → 1 ≤ d ∧ d ≤ 8) : ({ s with sess := sess } : State).Inv :=
  { h with
    devid := fun d hd => hs d (devid_eq_some_iff.1 hd)
    sendOpen := fun hst => absurd hidle hst }

theorem State.Inv.configure (h : s.Inv) (hidle : s.st = .idle) {m : Nat} (c : Timeout)
    (hm : 1 ≤ m ∧ m ≤ 255) : ({ s with maxRetry := m, timeout := c } : State).Inv :=
  { h with
    maxRetry := hm
    att := (h.idle hidle).1.trans_le (Nat.zero_le m)
    sending := fun hst => nomatch hidle.symm.trans hst
    failed := fun hst => nomatch hidle.symm.trans hst }

/-! #### A send -/

theorem State.Inv.sendOpen_of_busy (h : s.Inv) (hbusy : s.portReady = false) :
    s.devid.isSome = true ∧ s.out = [] ∧ SendRegisters s :=
  h.sendOpen fun hst => by simp [State.portReady, hst] at hbusy

/-- The start of a send in an open session (`45_transport.md` R132). -/
theorem State.Inv.started (h : s.Inv) {f x : List Byte} (ht : SameButBuffers t (s.started f x))
    (hopen : s.devid.isSome = true) (hreg : SendRegisters t) : t.Inv := by
  rw [ht] at hreg ⊢
  exact { h with
    att := Nat.zero_le _
    idle := nofun
    sendOpen := fun _ => ⟨hopen, rfl, hreg⟩
    busyRes := fun _ => rfl
    sending := fun _ => h.maxRetry.1
    written := by simp [State.started]
    success := nofun
    failed := nofun
    outOk := fun _ => rfl
    released := nofun }

/-- Sending: the attempt is counted and FB, a legal frame, is written (`45_transport.md` R134). -/
theorem State.Inv.sendingStep (h : s.Inv) (hst : s.st = .sending) : (sendingStep s).Inv := by
  have hbusy : s.portReady = false := by simp [portBusy_iff, hst]
  obtain ⟨hopen, hout, hreg⟩ := h.sendOpen_of_busy hbusy
  exact { h.chWrite (hreg.legalFrame h) with
    att := h.sending hst
    idle := nofun
    sendOpen := fun _ => ⟨hopen, hout, hreg.of_same rfl rfl rfl rfl hbusy.symm⟩
    busyRes := fun _ => h.busyRes hbusy
    sending := nofun
    written := fun _ => Nat.le_add_left 1 s.att
    success := nofun
    failed := nofun
    released := nofun }

/-- A move between two states of a running send keeps the invariant when the new one allows for ATT. -/
theorem State.Inv.moveBusy (h : s.Inv) (hbusy : s.portReady = false) {st : Fsm}
    (hbusy' : ({ s with st := st } : State).portReady = false)
    (hsending : st = .sending → s.att < s.maxRetry)
    (hwritten : st = .awaitingAck ∨ st = .retrying → 1 ≤ s.att) :
    ({ s with st := st } : State).Inv := by
  obtain ⟨hopen, hout, hreg⟩ := h.sendOpen_of_busy hbusy
  have hready : ¬ (st = .idle ∨ st = .success ∨ st = .failed) := fun hst => by
    simp [(portReady_iff { s with st := st }).2 hst] at hbusy'
  exact { h with
    idle := fun hst => absurd (.inl hst) hready
    sendOpen := fun _ => ⟨hopen, hout, hreg.of_same rfl rfl rfl rfl (hbusy'.trans hbusy.symm)⟩
    busyRes := fun _ => h.busyRes hbusy
    sending := hsending
    written := hwritten
    success := fun hst => absurd (.inr (.inl hst)) hready
    failed := fun hst => absurd (.inr (.inr hst)) hready
    released := fun hr => by simp [hbusy'] at hr }

theorem confirmedSess_cases (s : State) :
    s.confirmedSess = s.sess ∨ ∃ n, s.newId = some n ∧ s.confirmedSess = .opened n := by
  cases hn : s.newId with
  | none => exact .inl (confirmedSess_none hn)
  | some n =>
    cases hs : s.sess with
    | closed => exact .inl (by simp [State.confirmedSess, hn, hs, Session.setDevid])
    | opened d => exact .inr ⟨n, rfl, confirmedSess_some hn hs⟩

theorem confirmedSess_opened (hopen : s.devid.isSome = true) : ∃ d, s.confirmedSess = .opened d := by
  obtain ⟨d, hd⟩ := Option.isSome_iff_exists.1 hopen
  obtain hs | ⟨n, -, hs⟩ := confirmedSess_cases s
  · exact ⟨d, hs.trans (devid_eq_some_iff.1 hd)⟩
  · exact ⟨n, hs⟩

theorem State.Inv.confirmedSess_legal (h : s.Inv) (hbusy : s.portReady = false) {d : Nat}
    (hd : s.confirmedSess = .opened d) : 1 ≤ d ∧ d ≤ 8 := by
  obtain ⟨-, -, hreg⟩ := h.sendOpen_of_busy hbusy
  obtain hs | ⟨n, hn, hs⟩ := confirmedSess_cases s
  · exact h.devid d (devid_eq_some_iff.2 (hs.symm.trans hd))
  · obtain rfl : n = d := by simpa [hs] using hd
    exact hreg.newId_legal hbusy hn

/-- Success after a written frame: DEVID is a legal ID also where a SETID wrote it (`45_transport.md` R144,
R145). -/
theorem State.Inv.succeed (h : s.Inv) (hst : s.st = .awaitingAck) : s.succeed.Inv := by
  have hbusy : s.portReady = false := by simp [portBusy_iff, hst]
  obtain ⟨hopen, hout, hreg⟩ := h.sendOpen_of_busy hbusy
  obtain ⟨d, hd⟩ := confirmedSess_opened hopen
  have hdevid : s.succeed.devid = some d := devid_eq_some_iff.2 hd
  exact { h with
    devid := fun d hd => h.confirmedSess_legal hbusy (devid_eq_some_iff.1 hd)
    idle := nofun
    sendOpen := fun _ => ⟨by simp [hdevid], hout,
      hreg.ended rfl rfl rfl rfl fun hn => by simp [State.devid, confirmedSess_none hn]⟩
    busyRes := nofun
    sending := nofun
    written := by simp
    success := fun _ => ⟨h.written (.inl hst), rfl⟩
    failed := nofun
    outOk := fun hne => absurd rfl hne
    released := fun _ => ⟨rfl, rfl, rfl, rfl⟩ }

/-- Failed after the last attempt (`45_transport.md` R138). -/
theorem State.Inv.fail (h : s.Inv) (hst : s.st = .retrying) (hlast : s.maxRetry ≤ s.att) :
    s.fail.Inv := by
  obtain ⟨hopen, hout, hreg⟩ := h.sendOpen (by simp [hst])
  exact { h with
    idle := nofun
    sendOpen := fun _ => ⟨hopen, hout, hreg.ended rfl rfl rfl rfl fun _ => rfl⟩
    busyRes := nofun
    sending := nofun
    written := by simp
    success := nofun
    failed := fun _ => ⟨h.att.antisymm hlast, rfl⟩
    outOk := fun _ => hout
    released := fun _ => ⟨rfl, rfl, rfl, rfl⟩ }

theorem State.Inv.transportStep (h : s.Inv) (hbusy : s.portReady = false) :
    (transportStep s).Inv := by
  obtain ⟨-, -, hreg⟩ := h.sendOpen_of_busy hbusy
  have hack : (s.chRead s.exp.length).Inv :=
    h.chRead (hreg.exp_length.elim .inl fun h3 => .inr (.inl h3))
  obtain ⟨hst, he⟩ | ⟨hst, -, he⟩ | ⟨hst, -, he⟩ | ⟨hst, hlt, he⟩ | ⟨hst, hle, he⟩ :=
    transportStep_cases hbusy <;> rw [he]
  · exact h.sendingStep hst
  · exact hack.succeed hst
  · exact ((hack.chRead (.inr (.inr rfl))).logEvent _ _).moveBusy hbusy rfl nofun
      fun _ => h.written (.inl hst)
  · exact h.moveBusy hbusy rfl (fun _ => hlt) (by simp)
  · exact h.fail hst hle

/-! #### An accepted operation, and the step -/

theorem execIllegal_ready (hready : s.portReady = true) (op : Byte) :
    execIllegal op s = .next (s.accept.raise (.illegalOp op.toNat)) :=
  whenReady_ready hready _

theorem State.Inv.accepted {i : Instr} (h : s.Inv) (ht : AcceptedCases i s t) : t.Inv := by
  obtain ⟨r, hr, rfl⟩ | ⟨b, -, rfl⟩ | ⟨d, -, h1, h8, -, rfl⟩ | ⟨d, -, -, rfl⟩ |
    ⟨m, c, -, h1, h255, rfl⟩ | ⟨d, g, p, hd, rfl⟩ | ⟨d, n, -, hd, h1, h8, rfl⟩ := ht
  · exact h.accept.raise rfl hr
  · exact h.accept.complete rfl b
  · refine (h.accept.setSess rfl fun e he => ?_).complete rfl []
    cases he
    exact ⟨h1, h8⟩
  · exact (h.accept.chClose.setSess (sess := .closed) rfl nofun).complete rfl []
  · exact (h.accept.configure rfl c ⟨h1, h255⟩).complete rfl []
  · have hd := devid_eq_some_iff.2 hd
    exact h.started (f := frame d p) (x := ackToken) rfl (by simp [hd])
      (.inl ⟨d, p, hd, rfl, rfl, rfl⟩)
  · have hd := devid_eq_some_iff.2 hd
    exact h.started (f := idFrame n) (x := hex2 n) rfl (by simp [hd])
      (.inr ⟨n, h1, h8, rfl, rfl, .inl rfl⟩)

/-! ### What an operation and a step leave unchanged -/

/-- Every operation waits at a busy port (`46_session_control.md` R163). -/
theorem exec_busy (hbusy : s.portReady = false) (i : Instr) : exec i s = .next s := by
  cases i <;> simp only [exec, execOpen, execClose, execSetcfg, execEsc, execPack, execPlsc, execPlt,
    execPlg, execCsum, execWrap, execWrapid, execSend, execSendsc, execSendt, execSendg, execSetid,
    whenReady_busy hbusy]

/-! #### Pure operations -/

theorem deliver_loadTxt (x : List Nat) (o : Except Res (List Byte)) (s : State) :
    (s.loadTxt x).deliver o = s.deliver o := by cases o <;> rfl

theorem deliver_loadImg (x : List Byte) (o : Except Res (List Byte)) (s : State) :
    (s.loadImg x).deliver o = s.deliver o := by cases o <;> rfl

theorem deliver_loadPb (x : List Byte) (o : Except Res (List Byte)) (s : State) :
    (s.loadPb x).deliver o = s.deliver o := by cases o <;> rfl

/-- A pure operation delivers bytes or an error to the accepted state (`46_session_control.md` R166). -/
theorem exec_pure (hready : s.portReady = true) {i : Instr} (hi : isPure i = true) :
    ∃ o, exec i s = .next (s.accept.deliver o) := by
  cases i with
  | esc text => exact ⟨_, (exec_esc hready text).trans (by rw [deliver_loadTxt])⟩
  | pack image => exact ⟨_, (exec_pack hready image).trans (by rw [deliver_loadImg])⟩
  | plsc time => exact ⟨_, exec_plsc hready time⟩
  | plt schedule start stop pages => exact ⟨_, exec_plt hready schedule start stop pages⟩
  | plg page block image =>
    exact ⟨_, (exec_plg hready page block image).trans (by rw [deliver_loadImg])⟩
  | csum payload => exact ⟨_, (exec_csum hready payload).trans (by rw [deliver_loadPb])⟩
  | wrap d payload => exact ⟨_, (exec_wrap hready d payload).trans (by rw [deliver_loadPb])⟩
  | wrapid n => exact ⟨_, exec_wrapid hready n⟩
  | openSess | close | setcfg | send | sendsc | sendt | sendg | setid => cases hi

theorem sameButBuffers_deliver (o : Except Res (List Byte)) (s : State) :
    SameButBuffers (s.accept.deliver o)
      (s.settled (s.accept.deliver o).res (s.accept.deliver o).out) := by
  cases o <;> rfl

/-! #### The channel at acceptance -/

theorem AcceptedCases.channel {i : Instr} (h : AcceptedCases i s t) :
    t.script = s.script ∧ t.reads = s.reads ∧ t.log = s.log ∧
      (t.hist = s.hist ∨ i = .close ∧ t.hist = s.hist ++ [.close]) := by
  obtain ⟨r, -, rfl⟩ | ⟨b, -, rfl⟩ | ⟨d, -, -, -, -, rfl⟩ | ⟨d, hi, -, rfl⟩ |
    ⟨m, c, -, -, -, rfl⟩ | ⟨d, g, p, -, rfl⟩ | ⟨d, n, -, -, -, -, rfl⟩ := h
  case inr.inr.inr.inl => exact ⟨rfl, rfl, rfl, .inr ⟨hi, rfl⟩⟩
  all_goals exact ⟨rfl, rfl, rfl, .inl rfl⟩

/-! #### The control registers -/

/-- Of the operations only SETCFG writes MAXRETRY and TIMEOUT, only OPEN and CLOSE write SESS, and none writes
SUBST (`10_state.md` R11 to R14, R22). -/
theorem AcceptedCases.controlRegisters {i : Instr} (h : AcceptedCases i s t) :
    t.subst = s.subst ∧
    ((∃ m c, i = .setcfg m c) ∨ t.maxRetry = s.maxRetry ∧ t.timeout = s.timeout) ∧
    ((i = .close ∨ ∃ d, i = .openSess d) ∨ t.sess = s.sess) := by
  obtain ⟨r, -, rfl⟩ | ⟨b, -, rfl⟩ | ⟨d, hi, -, -, -, rfl⟩ | ⟨d, hi, -, rfl⟩ |
    ⟨m, c, hi, -, -, rfl⟩ | ⟨d, g, p, -, rfl⟩ | ⟨d, n, -, -, -, -, rfl⟩ := h
  case inr.inr.inl => exact ⟨rfl, .inr ⟨rfl, rfl⟩, .inl (.inr ⟨d, hi⟩)⟩
  case inr.inr.inr.inl => exact ⟨rfl, .inr ⟨rfl, rfl⟩, .inl (.inl hi)⟩
  case inr.inr.inr.inr.inl => exact ⟨rfl, .inl ⟨m, c, hi⟩, .inr rfl⟩
  all_goals exact ⟨rfl, .inr ⟨rfl, rfl⟩, .inr rfl⟩

/-- A transition of a send writes SESS or DEVID only at the success of a SETID (`45_transport.md` R145). -/
theorem transportStep_sess (hbusy : s.portReady = false) :
    (transportStep s).sess = s.sess ∨
    (s.st = .awaitingAck ∧ (transportStep s).st = .success ∧
      ∃ n, s.newId = some n ∧ (transportStep s).devid = some n) := by
  obtain ⟨-, he⟩ | ⟨hst, -, he⟩ | ⟨-, -, he⟩ | ⟨-, -, he⟩ | ⟨-, -, he⟩ :=
    transportStep_cases hbusy <;> rw [he]
  case inr.inl =>
    exact (confirmedSess_cases (s.chRead s.exp.length)).imp_right fun ⟨n, hn, hs⟩ =>
      ⟨hst, rfl, n, hn, devid_eq_some_iff.2 hs⟩
  all_goals exact .inl rfl

end

/-! ### The statements -/

/-- Settles O10: each register by the definition of the state after reset. -/
theorem resetRegisterValues : Obligations.ResetRegisterValues :=
  ⟨rfl, rfl, rfl, rfl, rfl, rfl, rfl, rfl, rfl, rfl, rfl, rfl⟩

/-- Settles O45. -/
theorem resetMeetsInvariant : Obligations.ResetMeetsInvariant := State.Inv.reset

/-- Settles O46, by the cases of a step: a reset, a transition of a send, an idle step, a reserved code, an
accepted operation. -/
theorem everyStepKeepsInvariant : Obligations.EveryStepKeepsInvariant := by
  intro s t h hstep
  obtain ⟨-, -, rfl⟩ | ⟨-, hbusy, rfl⟩ | ⟨-, -, rfl⟩ | ⟨-, hready, op, he⟩ |
    ⟨-, hready, r, later, i, extra, -, -, he⟩ := step_cases hstep
  · exact h.resetRegisters
  · exact h.transportStep hbusy
  · exact h
  · rw [execIllegal_ready (s := s.takeRecord []) hready] at he
    cases he
    exact (h.takeRecord []).accept.raise rfl (.inr (.inr rfl))
  · exact (h.takeRecord extra).accepted (exec_cases (s := s.takeRecord extra) hready he)

/-- Settles O52: a pure operation delivers to the accepted state, and delivery writes RES and OUT. -/
theorem pureOperationsFrame : Obligations.PureOperationsFrame := by
  intro i s t hready hi he
  obtain ⟨o, ho⟩ := exec_pure hready hi
  rw [ho] at he
  cases he
  exact sameButBuffers_deliver o s

/-- Settles O53: a busy port leaves the state, and of the accepted cases only CLOSE makes an event. -/
theorem onlyCloseTouchesChannelAtAcceptance : Obligations.OnlyCloseTouchesChannelAtAcceptance := by
  intro i s t he
  cases hport : s.portReady with
  | false =>
    rw [exec_busy hport] at he
    cases he
    exact ⟨fun _ => rfl, rfl, rfl, rfl, fun _ => .inl rfl⟩
  | true =>
    obtain ⟨hscript, hreads, hlog, hhist⟩ := (exec_cases hport he).channel
    exact ⟨fun hi => hhist.resolve_right fun hc => hi hc.1, hscript, hreads, hlog,
      fun _ => hhist.imp_right And.right⟩

/-- Settles O54, by the cases of a step without reset. -/
theorem controlRegisterWriters : Obligations.ControlRegisterWriters := by
  intro s t hreset hstep
  obtain ⟨hr, -, -⟩ | ⟨-, hbusy, rfl⟩ | ⟨-, -, rfl⟩ | ⟨-, hready, op, he⟩ |
    ⟨-, hready, r, later, i, extra, hp, hoffers, he⟩ := step_cases hstep
  · simp [hreset] at hr
  · obtain ⟨-, -, hmax, htime, hsubst, -⟩ := transportStep_frame s
    exact ⟨hsubst, fun hne => absurd ⟨hmax, htime⟩ (not_and_or.2 hne),
      fun hne => .inr ((transportStep_sess hbusy).resolve_left hne)⟩
  · exact ⟨rfl, fun hne => absurd ⟨rfl, rfl⟩ (not_and_or.2 hne), fun hne => absurd rfl hne⟩
  · rw [execIllegal_ready (s := s.takeRecord []) hready] at he
    cases he
    exact ⟨rfl, fun hne => absurd ⟨rfl, rfl⟩ (not_and_or.2 hne), fun hne => absurd rfl hne⟩
  · obtain ⟨hsubst, hcfg, hsess⟩ :=
      (exec_cases (s := s.takeRecord extra) hready he).controlRegisters
    refine ⟨hsubst, fun hne => ?_, fun hne => ?_⟩
    · obtain ⟨m, c, rfl⟩ := hcfg.resolve_right (not_and_or.2 hne)
      exact ⟨hready, r, later, m, c, hp, hoffers⟩
    · exact .inl ⟨hready, r, later, i, hp, hoffers, hsess.resolve_right hne⟩

end Sys2Proof.Machine

namespace Sys2Proof.Machine

/-! ### When a step exists -/

/-- An operation answers a next state, in whatever state it is presented: each meaning is an acceptance
(`whenReady`), which computes to one. -/
theorem exec_next (i : Instr) (s : State) : ∃ t, exec i s = .next t := by
  cases i <;> exact ⟨_, rfl⟩

/-- Without reset a ready block answers a next state, whatever is at its port. -/
theorem step_ready_next {s : State} (hreset : s.resetReq = false) (hready : s.portReady = true) :
    ∃ t, step s = .next t := by
  simp only [step, hreset, hready]
  cases fetch s with
  | nothing => exact ⟨s, rfl⟩
  | reserved op => exact ⟨_, execIllegal_ready (s := s.takeRecord []) hready op⟩
  | operation i extra => exact exec_next i (s.takeRecord extra)

/-- A step exists in every state but one whose reset input is active during a send
(`70_reset_and_hazards.md` R191): it turns on the reset input and the port alone. -/
theorem step_next_iff {s : State} :
    (∃ t, step s = .next t) ↔ (s.resetReq = true → s.portReady = true) := by
  constructor
  · rintro ⟨t, hstep⟩ hreset
    obtain ⟨-, hready, -⟩ | ⟨hr, -⟩ | ⟨hr, -⟩ | ⟨hr, -⟩ | ⟨hr, -⟩ := step_cases hstep
    · exact hready
    all_goals simp [hreset] at hr
  · intro h
    cases hreset : s.resetReq with
    | true => exact ⟨_, (step_reset hreset).trans (if_pos (h hreset))⟩
    | false =>
      cases hport : s.portReady with
      | false => exact ⟨_, step_busy hreset hport⟩
      | true => exact step_ready_next hreset hport

/-- A step from a busy block is a transition of its send. -/
theorem eq_transportStep_of_busy {s t : State} (hbusy : s.portReady = false)
    (hstep : step s = .next t) : t = transportStep s := by
  cases hreset : s.resetReq with
  | true => simpa [hbusy] using step_next_iff.1 ⟨t, hstep⟩ hreset
  | false => simpa [step_busy hreset hbusy] using hstep.symm

/-! ### The channel and the frame of a send -/

/-- An answer no longer than the read asks for is returned whole (`20_memory.md` R34, R36). -/
theorem chAnswer_answerWith {m : Nat} {r : List Byte} (hr : r.length ≤ m) (s : State) :
    (s.answerWith [r]).chAnswer m = r := by
  rw [chAnswer_of_script (State.answerWith_script s [r]), List.take_of_length_le hr]

/-- DEVID stands through every transition of a send but the one into Success (`45_transport.md` R145). -/
theorem transportStep_devid {s : State} (hbusy : s.portReady = false)
    (hst : (transportStep s).st ≠ .success) : (transportStep s).devid = s.devid := by
  obtain hsess | ⟨-, hsuccess, -⟩ := transportStep_sess hbusy
  · simp only [State.devid, hsess]
  · exact absurd hsuccess hst

/-- Settles O9: a settled answer is cut to the length asked, and the channel's answers are neither the reset
input nor the port, on which alone a step's existence turns. -/
theorem channelIsAnOracle : Obligations.ChannelIsAnOracle :=
  ⟨fun s _ _ hr => chAnswer_answerWith hr s, fun s m => chAnswer_length_le m s,
    fun s t _ hstep => step_next_iff.2 (step_next_iff (s := s).1 ⟨t, hstep⟩)⟩

/-- Settles O44: a busy block's step is a transition of its send, and that transition keeps the frame. -/
theorem frameIsSnapshot : Obligations.FrameIsSnapshot := by
  intro s t hbusy hstep
  obtain rfl := eq_transportStep_of_busy hbusy hstep
  obtain ⟨hfb, hexp, hmax, htime, hsubst, -⟩ := transportStep_frame s
  exact ⟨hfb, hexp, hmax, htime, hsubst, transportStep_devid hbusy⟩

end Sys2Proof.Machine

namespace Sys2Proof

/-! ### Encoding, then decoding -/

/-- The record of an operation that fits it decodes to that operation. -/
theorem decode_encode {i : Instr} (h : i.presentable = true) : decode (encode i) = .ok i := by
  cases i with
  | openSess d => exact Laws.RoundTrip.openSess d h
  | close => exact Laws.RoundTrip.close h
  | setcfg m t => exact Laws.RoundTrip.setcfg m t h
  | esc text => exact Laws.RoundTrip.esc text h
  | pack image => exact Laws.RoundTrip.pack image h
  | plsc t => exact Laws.RoundTrip.plsc t h
  | plt sc a b pages => exact Laws.RoundTrip.plt sc a b pages h
  | plg pg bl image => exact Laws.RoundTrip.plg pg bl image h
  | csum p => exact Laws.RoundTrip.csum p h
  | wrap d p => exact Laws.RoundTrip.wrap d p h
  | wrapid n => exact Laws.RoundTrip.wrapid n h
  | send p => exact Laws.RoundTrip.send p h
  | sendsc t => exact Laws.RoundTrip.sendsc t h
  | sendt sc a b pages => exact Laws.RoundTrip.sendt sc a b pages h
  | sendg pg bl image => exact Laws.RoundTrip.sendg pg bl image h
  | setid n => exact Laws.RoundTrip.setid n h

/-! ### Decoding, then encoding

What the decoder answers on a record is judged by `ReadsBack`; each part of the decoder meets it, and so does
the whole. -/

/-- Text elements apart, what fits the record fits the operand widths. -/
theorem wellFormed_of_presentable {i : Instr} (hesc : ∀ text, i ≠ .esc text)
    (h : i.presentable = true) : i.wellFormed = true := by
  cases i with
  | esc text => exact absurd rfl (hesc text)
  | _ => exact h

/-- An answer of the decoder on `record` gives these bytes back: they are the record of the operation answered,
with the further bytes behind it where some are reported. Nothing is asked of another rejection. -/
def ReadsBack (record : List Byte) : Except DecodeError Instr → Prop
  | .ok i => encode i = record ∧ i.presentable = true
  | .error (.trailing i extra) => encode i ++ extra = record ∧ i.wellFormed = true ∧ extra ≠ []
  | .error .noOperation | .error (.reservedCode _) | .error .truncated => True

theorem readsBack_ok {record : List Byte} {i : Instr} (hrec : encode i = record)
    (hfits : i.presentable = true) : ReadsBack record (.ok i) := ⟨hrec, hfits⟩

theorem readsBack_truncated (record : List Byte) : ReadsBack record (.error .truncated) := trivial

theorem readsBack_exactly {record extra : List Byte} {i : Instr} (hrec : encode i ++ extra = record)
    (hwf : i.wellFormed = true) : ReadsBack record (exactly i extra) := by
  cases extra with
  | nil => exact readsBack_ok (by simpa using hrec) (presentable_of_wellFormed hwf)
  | cons b bs => exact ⟨hrec, hwf, List.cons_ne_nil b bs⟩

/-! #### The operand groups -/

theorem readsBack_decodeByte {op : Byte} {mk : Nat → Instr} (rest : List Byte)
    (hrec : ∀ n, encode (mk n) = [op, byte n]) (hwf : ∀ n, (mk n).wellFormed = fits8 n) :
    ReadsBack (op :: rest) (decodeByte rest mk) := by
  cases rest with
  | nil => exact readsBack_truncated _
  | cons d extra =>
    exact readsBack_exactly (by simp [hrec, byte_of_toNat]) ((hwf _).trans (fits8_toNat d))

theorem readsBack_decodeClock {op : Byte} {mk : ClockTime → Instr} (rest : List Byte)
    (hrec : ∀ t, encode (mk t) = op :: encodeClock t)
    (hwf : ∀ t, (mk t).wellFormed = t.wellFormed) :
    ReadsBack (op :: rest) (decodeClock rest mk) := by
  unfold decodeClock
  split
  · refine readsBack_exactly ?_ ((hwf _).trans ?_)
    · simp [hrec, encodeClock, put2_nat2, byte_of_toNat]
    · simp [ClockTime.wellFormed, fits16_nat2, fits8_toNat]
  · exact readsBack_truncated _

theorem readsBack_decodeSchedule {op : Byte} {mk : Byte → DateTime → DateTime → List Byte → Instr}
    (rest : List Byte)
    (hrec : ∀ sc a b pages,
      encode (mk sc a b pages) = op :: sc :: (encodeDateTime a ++ encodeDateTime b ++ pages))
    (hwf : ∀ sc a b pages, (mk sc a b pages).wellFormed = (a.wellFormed && b.wellFormed)) :
    ReadsBack (op :: rest) (decodeSchedule rest mk) := by
  unfold decodeSchedule
  split
  · refine readsBack_ok ?_ (presentable_of_wellFormed ((hwf _ _ _ _).trans ?_))
    · simp [hrec, encodeDateTime, put2_nat2, byte_of_toNat]
    · simp [DateTime.wellFormed, fits16_nat2, fits8_toNat]
  · exact readsBack_truncated _

theorem readsBack_decodeGraphics {op : Byte} {mk : Byte → Nat → List Byte → Instr} (rest : List Byte)
    (hrec : ∀ page n image, encode (mk page n image) = op :: page :: byte n :: image)
    (hwf : ∀ page n image, (mk page n image).wellFormed = fits8 n) :
    ReadsBack (op :: rest) (decodeGraphics rest mk) := by
  unfold decodeGraphics
  split
  · exact readsBack_ok (by rw [hrec, byte_of_toNat])
      (presentable_of_wellFormed ((hwf _ _ _).trans (fits8_toNat _)))
  · exact readsBack_truncated _

/-- A text operand lacks bytes, or its elements fit their three bytes each and are laid out as it stands. -/
theorem decodeText_cases (rest : List Byte) :
    decodeText rest = .error .truncated ∨
      ∃ text, decodeText rest = .ok text ∧ text.flatMap put3 = rest ∧ text.all fits24 = true := by
  induction rest using decodeText.induct with
  | case1 => exact .inr ⟨[], rfl, rfl, rfl⟩
  | case2 b2 b1 b0 rest cs hcs ih =>
    obtain ⟨text, htext, hput, hfits⟩ := ih.resolve_left (by simp [hcs])
    exact .inr ⟨nat3 b2 b1 b0 :: text, by simp [decodeText, htext], by simp [put3_nat3, hput],
      by simp [fits24_nat3, hfits]⟩
  | case3 b2 b1 b0 rest e he ih =>
    have htrunc := ih.resolve_right (by simp [he])
    exact .inl (by simp [decodeText, htrunc])
  | case4 rest hnil hcons => exact .inl (by simp [decodeText])

/-! #### The whole record -/

theorem readsBack_decodeOperands (row : OpCode) (rest : List Byte) :
    ReadsBack (row.code :: rest) (decodeOperands row rest) := by
  cases row with
  | openSess | wrapid | setid => exact readsBack_decodeByte rest (fun _ => rfl) fun _ => rfl
  | close => exact readsBack_exactly rfl rfl
  | setcfg =>
    simp only [decodeOperands]
    split
    · refine readsBack_exactly ?_ ?_
      · simp [encode, encodeOperands, Instr.row, put4_nat4, byte_of_toNat]
      · simp [Instr.wellFormed, fits8_toNat, fits32_nat4]
    · exact readsBack_truncated _
  | esc =>
    simp only [decodeOperands]
    obtain htrunc | ⟨text, htext, hput, hfits⟩ := decodeText_cases rest
    · rw [htrunc]
      exact readsBack_truncated _
    · rw [htext]
      exact readsBack_ok (congrArg _ hput) hfits
  | pack | csum | send => exact readsBack_ok rfl rfl
  | plsc | sendsc => exact readsBack_decodeClock rest (fun _ => rfl) fun _ => rfl
  | plt | sendt =>
    exact readsBack_decodeSchedule rest (fun _ _ _ _ => rfl) fun _ _ _ _ => rfl
  | plg | sendg => exact readsBack_decodeGraphics rest (fun _ _ _ => rfl) fun _ _ _ => rfl
  | wrap =>
    cases rest with
    | nil => exact readsBack_truncated _
    | cons d payload =>
      exact readsBack_ok (by simp [encode, encodeOperands, Instr.row, byte_of_toNat]) (fits8_toNat d)

theorem readsBack_decode (record : List Byte) : ReadsBack record (decode record) := by
  cases record with
  | nil => trivial
  | cons op rest =>
    simp only [decode]
    cases hrow : rowOf op with
    | none => trivial
    | some row =>
      obtain rfl := (rowOf_eq_some_iff op row).1 hrow
      exact readsBack_decodeOperands row rest

/-! ### The statements about records -/

/-- Settles O1: a well-formed operation fits its record, and decoding undoes encoding on what fits. -/
theorem decodeEncodeGivesOperationBack : Obligations.DecodeEncodeGivesOperationBack :=
  fun _ h => decode_encode (h.elim presentable_of_wellFormed id)

/-- Settles O2: what the decoder answers gives the record back. -/
theorem decodedRecordIsItsEncoding : Obligations.DecodedRecordIsItsEncoding := by
  intro record i hdecode
  obtain ⟨hrec, hfits⟩ : ReadsBack record (.ok i) := hdecode ▸ readsBack_decode record
  exact ⟨hrec, hfits, fun hesc => wellFormed_of_presentable hesc hfits⟩

/-- Settles O3, by running the decoder on the five records. -/
theorem recordsFromTheTableDecode : Obligations.RecordsFromTheTableDecode := by
  unfold Obligations.RecordsFromTheTableDecode
  decide

end Sys2Proof

namespace Sys2Proof.Machine

/-! ### Records at the port -/

/-- A code outside the sixteen of the operation table selects no row (`30_encoding.md` R71). -/
theorem rowOf_reserved {op : Byte}
    (hop : op.toNat ∉ [0x01, 0x02, 0x03, 0x10, 0x20, 0x30, 0x31, 0x32, 0x40, 0x41, 0x42, 0x50, 0x51,
      0x52, 0x53, 0x54]) : rowOf op = none := by
  rw [rowOf_eq_none_iff]
  rintro row rfl
  cases row <;> exact hop (by decide)

theorem step_reserved {s : State} {op : Byte} {operands : List Byte} {later : List (List Byte)}
    (hreset : s.resetReq = false) (hready : s.portReady = true)
    (hp : s.pending = (op :: operands) :: later) (hrow : rowOf op = none) :
    step s = execIllegal op (s.takeRecord []) := by
  simp [step, hreset, hready, fetch, hp, decode, hrow]

/-- Settles O4: the code selects no row, so the step is an acceptance and the raising of F_ILLEGAL_OP. -/
theorem reservedCodeIsRefused : Obligations.ReservedCodeIsRefused := by
  intro s op operands later hreset hready hp hop
  have hstep := step_reserved hreset hready hp (rowOf_reserved hop)
  rw [execIllegal_ready (s := s.takeRecord []) hready] at hstep
  have htake : s.takeRecord [] = { s with pending := later } := by
    simp [State.takeRecord, leftover, hp]
  exact ⟨_, hstep, by rw [htake]; rfl⟩

/-- Settles O57: the further bytes the decoder reports give the record back, and the step takes it. -/
theorem operationWithExtraBytesRuns : Obligations.OperationWithExtraBytesRuns := by
  intro s record later i extra hreset hready hp hdecode
  obtain ⟨hrec, hwf, hextra⟩ : ReadsBack record (.error (.trailing i extra)) :=
    hdecode ▸ readsBack_decode record
  refine ⟨hwf, hrec, hextra, leftover extra, ?_⟩
  have hstep := step_extra hreset hready hp hdecode
  rwa [State.takeRecord, hp] at hstep

/-! ### Hexadecimal digits and the normal frame -/

/-- The sixteen digits `'0'..'9'`, `'A'..'F'` (`30_encoding.md` R52). -/
theorem hexDigit_mem {n : Nat} (h : n < 16) :
    hexDigit n ∈ [0x30, 0x31, 0x32, 0x33, 0x34, 0x35, 0x36, 0x37, 0x38, 0x39, 0x41, 0x42, 0x43, 0x44,
      0x45, 0x46].map byte := by
  decide +revert

theorem hexValue_hexDigit {n : Nat} (h : n < 16) : hexValue (hexDigit n) = some n := by
  decide +revert

theorem hexPair_hex2 {v : Nat} (h : v < 256) : hexPair (hex2 v) = some v := by
  have hhigh : hexValue (hexDigit (v / 16)) = some (v / 16) := hexValue_hexDigit (by omega)
  have hlow : hexValue (hexDigit (v % 16)) = some (v % 16) := hexValue_hexDigit (by omega)
  simp only [hex2, hexPair, hhigh, hlow, Nat.div_add_mod]

/-- A number of one decimal digit, a legal device ID among them, is written as 0 and that digit. -/
theorem hex2_of_lt_ten {d : Nat} (h : d < 10) : hex2 d = [0x30, byte (0x30 + d)] := by
  have hhigh : d / 16 = 0 := by omega
  have hlow : d % 16 = d := by omega
  simp [hex2, hexDigit, hhigh, hlow, h, byte]

/-- Settles O30: a byte's two digits are each below 16. -/
theorem hexDigitsSpellTheByte : Obligations.HexDigitsSpellTheByte :=
  fun v hv => ⟨hexDigit (v / 16), hexDigit (v % 16), rfl, hexPair_hex2 hv,
    hexDigit_mem (by omega), hexDigit_mem (by omega)⟩

/-- A frame's parts: six bytes before the payload, five after it (`30_encoding.md` R55). -/
theorem frame_eq_append {d : Nat} (p : List Byte) (h : d < 10) :
    frame d p = [0x3C, 0x49, 0x44, 0x30, byte (0x30 + d), 0x3E] ++
      (p ++ (hex2 (checksum p).toNat ++ [0x3C, 0x45, 0x3E])) := by
  simp [frame, hex2_of_lt_ten h]

/-- Settles O27, offset by offset over the frame's parts. -/
theorem frameLayout : Obligations.FrameLayout := by
  intro d p hlow hhigh
  have hparts := frame_eq_append p (show d < 10 by omega)
  have hafter : (frame d p).drop (6 + p.length) =
      hex2 (checksum p).toNat ++ [0x3C, 0x45, 0x3E] := by
    rw [hparts, ← List.drop_drop]
    simp
  refine ⟨frame_length d p, ?_, ?_, ?_, ?_⟩
  · simp [hparts]
  · simp [hparts]
  · rw [hafter]
    rfl
  · rw [show 8 + p.length = 6 + p.length + 2 by omega, ← List.drop_drop, hafter]
    rfl

end Sys2Proof.Machine

namespace Sys2Proof.Machine

/-! ### ESC: what a code point and a text become -/

theorem escPoint_of_lookup {t : SubstTable} {c : Nat} {b : List Byte}
    (h : lookupToken t c = some b) : escPoint t c = some b := by
  simp [escPoint, h]

theorem escPoint_of_not_key {t : SubstTable} {c : Nat} (h : lookupToken t c = none) :
    escPoint t c = if c ≤ 0x7F then some [byte c] else none := by
  simp [escPoint, h]

/-- A code point has no bytes exactly if it is neither a key nor ASCII (`41_character_encoder.md` R80). -/
theorem escPoint_eq_none_iff (t : SubstTable) (c : Nat) :
    escPoint t c = none ↔ ¬ Mappable t c := by
  have hkey := lookupToken_eq_none_iff t c
  cases hl : lookupToken t c with
  | some b => simp [escPoint_of_lookup hl, show c ∈ t.map Prod.fst by simpa [hl] using hkey]
  | none => simp [escPoint_of_not_key hl, hkey.1 hl]

/-- In a table with one token a key, the bytes of a code point are those of R80. -/
theorem escPoint_eq_some_iff {t : SubstTable} (h : (t.map Prod.fst).Pairwise (· < ·)) (c : Nat)
    (b : List Byte) : escPoint t c = some b ↔ PointBytes t c b := by
  have htoken := lookupToken_eq_some_iff h c
  have hkey := lookupToken_eq_none_iff t c
  cases hl : lookupToken t c with
  | some tok =>
    have hmem : c ∈ t.map Prod.fst := by simpa [hl] using hkey
    simp [escPoint_of_lookup hl, PointBytes, hmem, ← htoken, hl]
  | none =>
    simp [escPoint_of_not_key hl, PointBytes, hkey.1 hl, ← htoken, hl, eq_comm]

theorem escFrom_cons_none {t : SubstTable} {c : Nat} (h : escPoint t c = none) (k : Nat)
    (cs : List Nat) : escFrom t k (c :: cs) = .error (.unmappable k c) := by
  simp [escFrom, h]

theorem escFrom_cons_some {t : SubstTable} {c : Nat} {b : List Byte} (h : escPoint t c = some b)
    (k : Nat) (cs : List Nat) :
    escFrom t k (c :: cs) = (escFrom t (k + 1) cs).map (b ++ ·) := by
  cases hcs : escFrom t (k + 1) cs <;> simp [escFrom, h, hcs, Except.map]

/-- A text whose first code point has bytes is encoded exactly if the rest of it is. -/
theorem escFrom_cons_eq_ok_iff {t : SubstTable} {c : Nat} {b : List Byte}
    (h : escPoint t c = some b) (k : Nat) (cs : List Nat) (out : List Byte) :
    escFrom t k (c :: cs) = .ok out ↔ ∃ rest, escFrom t (k + 1) cs = .ok rest ∧ b ++ rest = out := by
  rw [escFrom_cons_some h]
  cases escFrom t (k + 1) cs <;> simp [Except.map]

/-- The bytes of a text are those of its code points in order, each of which has some
(`41_character_encoder.md` R80). -/
theorem escFrom_eq_ok_iff {t : SubstTable} (h : (t.map Prod.fst).Pairwise (· < ·)) (text : List Nat)
    (k : Nat) (out : List Byte) :
    escFrom t k text = .ok out ↔
      ∃ parts, List.Forall₂ (PointBytes t) text parts ∧ parts.flatten = out := by
  induction text generalizing k out with
  | nil => simp [escFrom]
  | cons c cs ih =>
    have hbytes : ∀ b, PointBytes t c b ↔ escPoint t c = some b :=
      fun b => (escPoint_eq_some_iff h c b).symm
    cases hpoint : escPoint t c with
    | none => simp [escFrom_cons_none hpoint, List.forall₂_cons_left_iff, hbytes, hpoint]
    | some bytes =>
      rw [escFrom_cons_eq_ok_iff hpoint]
      constructor
      · rintro ⟨rest, hrest, rfl⟩
        obtain ⟨parts, hparts, rfl⟩ := (ih (k + 1) rest).1 hrest
        exact ⟨bytes :: parts, .cons ((hbytes bytes).2 hpoint) hparts, rfl⟩
      · rintro ⟨_, _ | ⟨hb, hparts⟩, rfl⟩
        obtain rfl := Option.some_inj.1 (hpoint.symm.trans ((hbytes _).1 hb))
        exact ⟨_, (ih (k + 1) _).2 ⟨_, hparts, rfl⟩, rfl⟩

/-- The first unmappable code point is reported with its index (`41_character_encoder.md` R81, R83 (i)). -/
theorem escFrom_first_unmappable {t : SubstTable} {pre : List Nat} {c : Nat}
    (hpre : ∀ x ∈ pre, Mappable t x) (hc : ¬ Mappable t c) (post : List Nat) (k : Nat) :
    escFrom t k (pre ++ c :: post) = .error (.unmappable (k + pre.length) c) := by
  induction pre generalizing k with
  | nil => exact escFrom_cons_none ((escPoint_eq_none_iff t c).2 hc) k post
  | cons x xs ih =>
    obtain ⟨hx, hxs⟩ := List.forall_mem_cons.1 hpre
    obtain ⟨b, hb⟩ := Option.ne_none_iff_exists'.1 (mt (escPoint_eq_none_iff t x).1 (not_not.2 hx))
    rw [List.cons_append, escFrom_cons_some hb, ih hxs, List.length_cons, Nat.add_right_comm]
    rfl

/-! ### ESC at a ready port -/

theorem exec_esc_deliver {s : State} (hready : s.portReady = true) (text : List Nat) :
    exec (.esc text) s = .next (s.accept.deliver (esc s.subst text)) := by
  rw [exec_esc hready, deliver_loadTxt]

theorem answers_esc_ok {s : State} (hready : s.portReady = true) {text : List Nat} {out : List Byte}
    (hesc : esc s.subst text = .ok out) :
    Answers (.esc text) s (s.settled ⟨.ok, .zero, .none⟩ out) := by
  refine ⟨s.accept.complete out, ?_, rfl⟩
  rw [exec_esc_deliver hready, hesc, deliver_ok]

theorem answers_esc_error {s : State} (hready : s.portReady = true) {text : List Nat} {r : Res}
    (hesc : esc s.subst text = .error r) : Answers (.esc text) s (s.settled r []) := by
  refine ⟨s.accept.raise r, ?_, rfl⟩
  rw [exec_esc_deliver hready, hesc, deliver_error]

/-- The EncodingError of the first unmappable code point, for every table. -/
theorem answers_esc_unmappable {s : State} (hready : s.portReady = true) {pre : List Nat} {c : Nat}
    (hpre : ∀ x ∈ pre, Mappable s.subst x) (hc : ¬ Mappable s.subst c) (post : List Nat) :
    Answers (.esc (pre ++ c :: post)) s
      (s.settled ⟨.encoding, .eUnmappable, .place pre.length c⟩ []) := by
  have hesc := escFrom_first_unmappable hpre hc post 0
  rw [Nat.zero_add] at hesc
  exact answers_esc_error hready hesc

/-- RES of class OK means that the text was encoded, and OUT holds its bytes. -/
theorem esc_of_exec_ok {s t : State} (hready : s.portReady = true) {text : List Nat}
    (he : exec (.esc text) s = .next t) (hok : t.res.cls = .ok) :
    esc s.subst text = .ok t.out := by
  rw [exec_esc_deliver hready] at he
  cases he
  cases hesc : esc s.subst text with
  | ok out => rfl
  | error r => simp [hesc, escFrom_error hesc] at hok

/-! ### What W1 to W5 and R83 (g) say of the bytes -/

/-- A key becomes its 5 bytes and another character 1 byte (`41_character_encoder.md` R82, W2). -/
theorem pointBytes_length {t : SubstTable} (htokens : ∀ e ∈ t, isToken e.2 = true) {c : Nat}
    {b : List Byte} (hb : PointBytes t c b) :
    b.length = if c ∈ t.map Prod.fst then 5 else 1 := by
  obtain hmem | ⟨hkey, -, rfl⟩ := hb
  · rw [if_pos (List.mem_map_of_mem (f := Prod.fst) hmem), isToken_length (htokens _ hmem)]
  · rw [if_neg hkey, List.length_singleton]

theorem flatten_length_of_pointBytes {t : SubstTable} (htokens : ∀ e ∈ t, isToken e.2 = true)
    {text : List Nat} {parts : List (List Byte)} (h : List.Forall₂ (PointBytes t) text parts) :
    parts.flatten.length =
      5 * (text.filter fun c => decide (c ∈ t.map Prod.fst)).length +
        (text.filter fun c => !decide (c ∈ t.map Prod.fst)).length := by
  induction h with
  | nil => rfl
  | @cons c b cs parts hb _ ih =>
    rw [List.flatten_cons, List.length_append, ih, pointBytes_length htokens hb]
    by_cases hkey : c ∈ t.map Prod.fst
    · simp [hkey]
      omega
    · simp [hkey]
      omega

/-- Neither a surrogate nor a number above 0x10FFFF is mappable (`41_character_encoder.md` R83 (g)). -/
theorem not_mappable_of_not_scalar {t : SubstTable} (hkeys : t.ScalarKeys) {c : Nat}
    (hc : (0xD800 ≤ c ∧ c ≤ 0xDFFF) ∨ 0x10FFFF < c) : ¬ Mappable t c := by
  rintro (hkey | hascii)
  · obtain ⟨e, he, rfl⟩ := List.mem_map.1 hkey
    have hscalar := hkeys e he
    simp only [isScalar, Bool.or_eq_true, Bool.and_eq_true, decide_eq_true_eq] at hscalar
    omega
  · omega

/-! ### The statements about ESC -/

/-- Settles O16: a text all of whose code points have bytes gives them in order; else the first without
bytes is reported. -/
theorem escFollowsItsRule : Obligations.EscFollowsItsRule := by
  intro text s hready hrising
  refine ⟨rfl, fun parts hparts => ?_, ?_⟩
  · exact answers_esc_ok hready ((escFrom_eq_ok_iff hrising text 0 _).2 ⟨parts, hparts, rfl⟩)
  · rintro pre c post rfl hpre hc
    exact answers_esc_unmappable hready hpre hc post

/-- Settles O18: OUT is the concatenation of the code points' bytes, and the lengths add up. -/
theorem escOutputLength : Obligations.EscOutputLength := by
  rintro text s t hready ⟨hrising, htokens, -⟩ he hok
  obtain ⟨parts, hparts, hout⟩ :=
    (escFrom_eq_ok_iff hrising text 0 _).1 (esc_of_exec_ok hready he hok)
  rw [← hout]
  exact flatten_length_of_pointBytes htokens hparts

/-- Settles O58: the element is no key and no ASCII character. -/
theorem escRejectsNonScalars : Obligations.EscRejectsNonScalars :=
  fun _ _ _ post hready hkeys hpre hc =>
    answers_esc_unmappable hready hpre (not_mappable_of_not_scalar hkeys hc) post

/-- Settles O17: W4 gives the euro sign its token, and O16's rule gives the token as OUT. -/
theorem euroBecomesItsToken : Obligations.EuroBecomesItsToken := by
  rintro s hready ⟨hrising, -, -, heuro, -⟩
  obtain ⟨-, hmapped, -⟩ := escFollowsItsRule [0x20AC] s hready hrising
  exact hmapped [euroToken] (.cons (.inl heuro) .nil)

end Sys2Proof.Machine

namespace Sys2Proof.Machine

/-! ### Operations that deliver a function of their checked operands -/

/-- At a ready port such an operation answers OK with the function's value, or the first violation with an
empty OUT. -/
theorem answers_of_deliver_fields {s : State} {i : Instr} {fields : List Field} {value : List Byte}
    (he : exec i s =
      .next (s.accept.deliver (validated (firstViolation (fields.map fieldCheck)) value))) :
    (AllInDomain fields → Answers i s (s.settled ⟨.ok, .zero, .none⟩ value)) ∧
    (∀ r, FirstViolation fields r → Answers i s (s.settled r [])) := by
  obtain ⟨hlegal, hfirst⟩ := validated_fields fields value
  constructor
  · intro hfields
    exact ⟨s.accept.complete value, by rw [he, hlegal hfields, deliver_ok], rfl⟩
  · intro r hr
    exact ⟨s.accept.raise r, by rw [he, hfirst r hr, deliver_error], rfl⟩

/-! ### Valid images -/

theorem allInDomain_imageFields_iff (image : List Byte) :
    AllInDomain (imageFields image) ↔ image.length = 224 ∧ ∀ b ∈ image, b.toNat ≤ 3 := by
  rw [imageFields, AllInDomain, List.forall_mem_cons]
  refine and_congr ⟨fun h => Nat.le_antisymm h.2 h.1, fun h => ⟨h.ge, h.le⟩⟩ ?_
  rw [elementFields, List.forall_mem_iff_getElem, List.forall_mem_iff_getElem]
  simp [InDomain]

/-- The numbers of the port are the codes (`42_graphics_packer.md` R90). -/
theorem symbolCode_of_le {b : Byte} (h : b.toNat ≤ 3) : symbolCode b = b.toNat := by
  have hcases : b.toNat = 0 ∨ b.toNat = 1 ∨ b.toNat = 2 ∨ b.toNat = 3 := by omega
  obtain hb | hb | hb | hb := hcases <;>
    simp [symbolCode, pixelOf, hb, Pixel.code, Pixel.bit1, Pixel.bit2]

section
variable {image : List Byte} (hsymbols : ∀ b ∈ image, b.toNat ≤ 3)
include hsymbols

theorem getElem?_getD_symbol_le (k : Nat) : (image[k]?.getD 0).toNat ≤ 3 := by
  cases hk : image[k]? with
  | none => decide
  | some b => exact hsymbols b (List.mem_of_getElem? hk)

theorem imageCode_le (py col : Nat) : imageCode image py col ≤ 3 := by
  unfold imageCode
  split
  · omega
  · exact getElem?_getD_symbol_le hsymbols _

theorem pixelAt_eq_imageCode (py col : Nat) : pixelAt image py col = imageCode image py col := by
  unfold pixelAt imageCode
  rw [symbolCode_of_le (getElem?_getD_symbol_le hsymbols _)]

end

/-! ### The bytes of a packed block -/

/-- The byte of four 2-bit codes, the leftmost most significant (`42_graphics_packer.md` R92). -/
def joinCodes (c : Nat → Nat) : Nat := 64 * c 0 + 16 * c 1 + 4 * c 2 + c 3

/-- Code `j` of the four in a byte. -/
def codeOf (v j : Nat) : Nat := v / 4 ^ (3 - j) % 4

theorem codeOf_le (v j : Nat) : codeOf v j ≤ 3 := by
  unfold codeOf
  omega

theorem joinCodes_lt {c : Nat → Nat} (hc : ∀ j, c j ≤ 3) : joinCodes c < 256 := by
  unfold joinCodes
  have := hc 0
  have := hc 1
  have := hc 2
  have := hc 3
  omega

theorem codeOf_joinCodes {c : Nat → Nat} (hc : ∀ j, c j ≤ 3) {j : Nat} (hj : j < 4) :
    codeOf (joinCodes c) j = c j := by
  unfold codeOf joinCodes
  have := hc 0
  have := hc 1
  have := hc 2
  have := hc 3
  interval_cases j <;> omega

theorem joinCodes_codeOf {v : Nat} (hv : v < 256) : joinCodes (codeOf v) = v := by
  simp only [joinCodes, codeOf]
  omega

theorem joinCodes_congr {c d : Nat → Nat} (h : ∀ j < 4, c j = d j) : joinCodes c = joinCodes d := by
  simp only [joinCodes, h 0, h 1, h 2, h 3, Nat.reduceLT]

theorem packValue_eq (image : List Byte) (i : Nat) :
    packValue image i = joinCodes fun j => pixelAt image (packPy i) (4 * packPx i + j) := by
  simp only [packValue, joinCodes, List.foldl_cons, List.foldl_nil]
  ring

@[simp] theorem pack_length (image : List Byte) : (pack image).length = 64 := by simp [pack]

theorem pack_getElem? (image : List Byte) {i : Nat} (hi : i < 64) :
    (pack image)[i]? = some (byte (packValue image i)) := by
  simp [pack, hi]

/-- Four codes of a valid image never overflow their byte (`42_graphics_packer.md` R95). -/
theorem pack_getElem?_toNat {image : List Byte} (hsymbols : ∀ b ∈ image, b.toNat ≤ 3) {i : Nat}
    (hi : i < 64) :
    ((pack image)[i]?.getD 0).toNat =
      joinCodes fun j => imageCode image (packPy i) (4 * packPx i + j) := by
  have hlt := joinCodes_lt fun j => imageCode_le hsymbols (packPy i) (4 * packPx i + j)
  simp only [pack_getElem? image hi, packValue_eq, pixelAt_eq_imageCode hsymbols, Option.getD_some,
    byte_toNat, Nat.mod_eq_of_lt hlt]

/-- Settles O19: PACK delivers `pack image` after the checks of R91, and each byte joins its four codes. -/
theorem packFollowsItsRule : Obligations.PackFollowsItsRule := by
  intro image s hready
  have he := exec_pack hready image
  rw [deliver_loadImg, checkImage_eq] at he
  obtain ⟨hlegal, hfirst⟩ := answers_of_deliver_fields he
  refine ⟨rfl, fun hvalid => ?_, hfirst⟩
  obtain ⟨-, hsymbols⟩ := (allInDomain_imageFields_iff image).1 hvalid
  exact ⟨pack image, hlegal hvalid, pack_length image, fun i hi => pack_getElem?_toNat hsymbols hi⟩

/-! ### Unpacking -/

/-- The index of the byte that holds the pixel in row `py`, column `col` (`42_graphics_packer.md` R94). -/
def blockIndex (py col : Nat) : Nat := 16 * (col / 8) + 2 * py + col / 4 % 2

/-- The symbol of the image index `k` in a packed block. -/
def unpackSymbol (block : List Byte) (k : Nat) : Byte :=
  byte (codeOf (block[blockIndex (k / 32) (k % 32)]?.getD 0).toNat (k % 4))

/-- The image of a packed block, the inverse of `pack`. -/
def unpack (block : List Byte) : List Byte := (List.range 224).map (unpackSymbol block)

theorem blockIndex_lt {py col : Nat} (hpy : py < 8) (hcol : col < 32) : blockIndex py col < 64 := by
  unfold blockIndex
  omega

theorem packPy_blockIndex {py : Nat} (hpy : py < 8) (col : Nat) : packPy (blockIndex py col) = py := by
  unfold packPy blockIndex
  omega

theorem packPx_blockIndex {py : Nat} (hpy : py < 8) (col : Nat) :
    packPx (blockIndex py col) = col / 4 := by
  unfold packPx blockIndex
  omega

theorem blockIndex_pack (i : Nat) {j : Nat} (hj : j < 4) :
    blockIndex (packPy i) (4 * packPx i + j) = i := by
  unfold blockIndex packPy packPx
  omega

theorem packPx_lt {i : Nat} (hi : i < 64) : packPx i < 8 := by
  unfold packPx
  omega

theorem lt_of_mem_paddingIndices {i : Nat} (hi : i ∈ paddingIndices) : i < 64 := by
  revert i
  decide

/-- The padding bytes are those of row 7 (`20_memory.md` R32). -/
theorem mem_paddingIndices_iff {i : Nat} (hi : i < 64) : i ∈ paddingIndices ↔ packPy i = 7 := by
  decide +revert

theorem unpackSymbol_toNat (block : List Byte) (k : Nat) :
    (unpackSymbol block k).toNat =
      codeOf (block[blockIndex (k / 32) (k % 32)]?.getD 0).toNat (k % 4) := by
  have hle := codeOf_le (block[blockIndex (k / 32) (k % 32)]?.getD 0).toNat (k % 4)
  rw [unpackSymbol, byte_toNat, Nat.mod_eq_of_lt (by omega)]

theorem unpackSymbol_le (block : List Byte) (k : Nat) : (unpackSymbol block k).toNat ≤ 3 := by
  rw [unpackSymbol_toNat]
  exact codeOf_le _ _

theorem unpack_getElem? (block : List Byte) {k : Nat} (hk : k < 224) :
    (unpack block)[k]? = some (unpackSymbol block k) := by
  simp [unpack, hk]

theorem unpack_symbols (block : List Byte) : ∀ b ∈ unpack block, b.toNat ≤ 3 := by
  simp [unpack, unpackSymbol_le]

theorem unpack_valid (block : List Byte) : AllInDomain (imageFields (unpack block)) :=
  (allInDomain_imageFields_iff _).2 ⟨by simp [unpack], unpack_symbols block⟩

/-- The pixels of an unpacked image are the codes of the block's bytes. -/
theorem imageCode_unpack (block : List Byte) {i j : Nat} (hi : i < 64) (hrow : packPy i ≠ 7)
    (hj : j < 4) :
    imageCode (unpack block) (packPy i) (4 * packPx i + j) = codeOf (block[i]?.getD 0).toNat j := by
  have hpx := packPx_lt hi
  have hpy : packPy i < 7 := by
    unfold packPy at hrow ⊢
    omega
  have hdiv : (32 * packPy i + (4 * packPx i + j)) / 32 = packPy i := by omega
  have hmod : (32 * packPy i + (4 * packPx i + j)) % 32 = 4 * packPx i + j := by omega
  have hlane : (32 * packPy i + (4 * packPx i + j)) % 4 = j := by omega
  rw [imageCode, if_neg hrow, unpack_getElem? block (by omega), Option.getD_some, unpackSymbol_toNat,
    hdiv, hmod, hlane, blockIndex_pack i hj]

/-- Unpacking gives a valid image back: pixel `k` is code `k mod 4` of its byte. -/
theorem unpack_pack {image : List Byte} (hlen : image.length = 224)
    (hsymbols : ∀ b ∈ image, b.toNat ≤ 3) : unpack (pack image) = image := by
  apply List.ext_getElem (by simp [unpack, hlen])
  intro k _ hk
  rw [hlen] at hk
  have hpy : k / 32 < 8 := by omega
  have hrow : k / 32 ≠ 7 := by omega
  have hindex : 32 * (k / 32) + (4 * (k % 32 / 4) + k % 4) = k := by omega
  have hcode : codeOf ((pack image)[blockIndex (k / 32) (k % 32)]?.getD 0).toNat (k % 4) =
      imageCode image (k / 32) (4 * (k % 32 / 4) + k % 4) := by
    rw [pack_getElem?_toNat hsymbols (blockIndex_lt hpy (by omega)), packPy_blockIndex hpy,
      packPx_blockIndex hpy]
    exact codeOf_joinCodes (fun j => imageCode_le hsymbols _ _) (by omega)
  simp only [unpack, List.getElem_map, List.getElem_range, unpackSymbol, hcode]
  rw [imageCode, if_neg hrow, hindex, List.getElem?_eq_getElem (by omega), Option.getD_some,
    byte_of_toNat]

/-- The padding bytes of a packed block are zero, whatever the image holds (`42_graphics_packer.md`
R96 (b)). -/
theorem pack_padding (image : List Byte) {i : Nat} (hi : i < 64) (hrow : packPy i = 7) :
    (pack image)[i]? = some 0 := by
  simp [pack_getElem? image hi, packValue, pixelAt, hrow, byte]

theorem packValue_unpack (block : List Byte) {i : Nat} (hi : i < 64) (hrow : packPy i ≠ 7) :
    packValue (unpack block) i = (block[i]?.getD 0).toNat :=
  calc packValue (unpack block) i
      = joinCodes fun j => imageCode (unpack block) (packPy i) (4 * packPx i + j) := by
        simp only [packValue_eq, pixelAt_eq_imageCode (unpack_symbols block)]
    _ = joinCodes (codeOf (block[i]?.getD 0).toNat) :=
        joinCodes_congr fun _ hj => imageCode_unpack block hi hrow hj
    _ = (block[i]?.getD 0).toNat := joinCodes_codeOf (BitVec.isLt _)

/-- Packing the unpacked block gives it back when its padding bytes are zero. -/
theorem pack_unpack {block : List Byte} (hlen : block.length = 64)
    (hpad : ∀ i ∈ paddingIndices, block[i]? = some 0) : pack (unpack block) = block := by
  apply List.ext_getElem?
  intro i
  by_cases hi : i < 64
  · by_cases hrow : packPy i = 7
    · rw [pack_padding _ hi hrow, hpad i ((mem_paddingIndices_iff hi).2 hrow)]
    · rw [pack_getElem? _ hi, packValue_unpack block hi hrow, byte_of_toNat,
        List.getElem?_eq_getElem (by omega), Option.getD_some]
  · rw [List.getElem?_eq_none (by rw [pack_length]; omega), List.getElem?_eq_none (by omega)]

/-- Settles O20: `unpack` is the inverse of `pack` on both sides. -/
theorem packIsBijective : Obligations.PackIsBijective := by
  refine ⟨fun a b ha hb hab => ?_, fun a _ => ⟨pack_length a, fun i hi => ?_⟩,
    fun block hlen hpad => ⟨unpack block, unpack_valid block, pack_unpack hlen hpad⟩⟩
  · obtain ⟨hlenA, hsymbolsA⟩ := (allInDomain_imageFields_iff a).1 ha
    obtain ⟨hlenB, hsymbolsB⟩ := (allInDomain_imageFields_iff b).1 hb
    rw [← unpack_pack hlenA hsymbolsA, hab, unpack_pack hlenB hsymbolsB]
  · have hlt := lt_of_mem_paddingIndices hi
    exact pack_padding a hlt ((mem_paddingIndices_iff hlt).1 hi)

end Sys2Proof.Machine

namespace Sys2Proof.Machine

/-! ### The builders in the terms of the rules -/

theorem buildClock_eq (t : ClockTime) :
    buildClock t = validated (firstViolation ((clockFields t).map fieldCheck)) (clockBytes t) := by
  rw [buildClock, checkClock_eq]
  rfl

theorem buildSchedule_eq (schedule : Byte) (start stop : DateTime) (pages : List Byte) :
    buildSchedule schedule start stop pages =
      validated (firstViolation ((scheduleFields schedule start stop pages).map fieldCheck))
        (scheduleBytes schedule start stop pages) := by
  rw [buildSchedule, checkPlt_eq]
  rfl

theorem buildGraphics_eq (page : Byte) (block : Nat) (image : List Byte) :
    buildGraphics page block image =
      validated (firstViolation ((graphicsFields page block image).map fieldCheck))
        (graphicsBytes page block image) := by
  rw [buildGraphics, checkPlg_eq]
  rfl

/-! ### Lengths of the payloads -/

/-- Every field has two digits (`30_encoding.md` R53). -/
theorem flatMap_dec2_length (values : List Nat) : (values.flatMap dec2).length = 2 * values.length := by
  simp [List.length_flatMap, dec2, Nat.mul_comm]

theorem clockBytes_length (t : ClockTime) : (clockBytes t).length = 18 := by
  simp only [clockBytes, List.length_append, flatMap_dec2_length, List.length_cons, List.length_nil]

theorem scheduleBytes_length (schedule : Byte) (start stop : DateTime) (pages : List Byte) :
    (scheduleBytes schedule start stop pages).length = 24 + pages.length := by
  simp only [scheduleBytes, List.length_append, flatMap_dec2_length, List.length_cons, List.length_nil]

theorem graphicsBytes_length (page : Byte) (block : Nat) (image : List Byte) :
    (graphicsBytes page block image).length = 69 := by
  simp only [graphicsBytes, List.length_append, pack_length, List.length_cons, List.length_nil]

/-! ### The statements about PLSC, PLT and PLG -/

/-- Settles O21: PLSC delivers the set clock payload after the checks of R102. -/
theorem plscFollowsItsRule : Obligations.PlscFollowsItsRule := by
  intro time s hready
  have he := exec_plsc hready time
  rw [buildClock_eq] at he
  obtain ⟨hlegal, hfirst⟩ := answers_of_deliver_fields he
  exact ⟨rfl, fun hfields => ⟨hlegal hfields, clockBytes_length time⟩, hfirst⟩

/-- Settles O22: PLT delivers the set schedule payload after the checks of R103. -/
theorem pltFollowsItsRule : Obligations.PltFollowsItsRule := by
  intro schedule start stop pages s hready
  have he := exec_plt hready schedule start stop pages
  rw [buildSchedule_eq] at he
  obtain ⟨hlegal, hfirst⟩ := answers_of_deliver_fields he
  exact ⟨rfl, fun hfields => ⟨hlegal hfields, scheduleBytes_length schedule start stop pages⟩, hfirst⟩

/-- Settles O23: PLG delivers the graphics block payload after the checks of R104; IMG is released. -/
theorem plgFollowsItsRule : Obligations.PlgFollowsItsRule := by
  intro page block image s hready
  have he := exec_plg hready page block image
  rw [deliver_loadImg, buildGraphics_eq] at he
  obtain ⟨hlegal, hfirst⟩ := answers_of_deliver_fields he
  exact ⟨rfl, fun hfields => ⟨hlegal hfields, graphicsBytes_length page block image⟩, hfirst⟩

end Sys2Proof.Machine

namespace Sys2Proof.Machine

/-! ### Operations that deliver a checked value -/

/-- At a ready port such an operation answers OK with the value, or what its check found with an empty OUT. -/
theorem answers_of_deliver_validated {s : State} {i : Instr} {violation : Option Res}
    {value : List Byte} (he : exec i s = .next (s.accept.deliver (validated violation value))) :
    (violation = none → Answers i s (s.settled ⟨.ok, .zero, .none⟩ value)) ∧
    (∀ r, violation = some r → Answers i s (s.settled r [])) := by
  constructor
  · rintro rfl
    exact ⟨s.accept.complete value, by rw [he, validated_none, deliver_ok], rfl⟩
  · rintro r rfl
    exact ⟨s.accept.raise r, by rw [he, validated_some, deliver_error], rfl⟩

/-! ### PAYLOAD_MAX: admitted and longer payloads -/

theorem byPayloadMax_within {α : Type} {p : List Byte} (h : WithinPayloadMax p)
    (admitted tooLong : α) : byPayloadMax p admitted tooLong = admitted := by
  unfold byPayloadMax
  split
  · rfl
  next m hm => exact if_pos (h m hm)

theorem byPayloadMax_exceeding {α : Type} {p : List Byte} (h : ¬ WithinPayloadMax p)
    (admitted tooLong : α) : byPayloadMax p admitted tooLong = tooLong := by
  obtain ⟨m, hm, hlong⟩ : ∃ m, Config.payloadMax = some m ∧ ¬ p.length ≤ m := by
    simpa [WithinPayloadMax] using h
  simp [byPayloadMax, hm, hlong]

/-- What holds of the answer for admitted payloads and of the one for longer payloads, each where it applies,
holds of the answer that PAYLOAD_MAX selects. -/
theorem byPayloadMax_induction {α : Type} {P : α → Prop} {p : List Byte} {admitted tooLong : α}
    (hwithin : WithinPayloadMax p → P admitted) (hexceeding : ¬ WithinPayloadMax p → P tooLong) :
    P (byPayloadMax p admitted tooLong) := by
  by_cases h : WithinPayloadMax p
  · rw [byPayloadMax_within h]
    exact hwithin h
  · rw [byPayloadMax_exceeding h]
    exact hexceeding h

theorem checkPayload_exceeding {p : List Byte} (h : ¬ WithinPayloadMax p) :
    checkPayload p = some ⟨.validation, .vPayloadLen, .value p.length⟩ := by
  rw [checkPayload_eq, byPayloadMax_exceeding h]

/-! ### CSUM and WRAP at a ready port -/

/-- Settles O24: the only check of CSUM is that of PAYLOAD_MAX, and the checksum is the fold. -/
theorem csumFollowsItsRule : Obligations.CsumFollowsItsRule := by
  intro p s hready
  have he := exec_csum hready p
  rw [deliver_loadPb] at he
  obtain ⟨hok, herror⟩ := answers_of_deliver_validated he
  have hwithin := fun h : WithinPayloadMax p => hok (checkPayload_within h)
  exact ⟨rfl, hwithin, byPayloadMax_induction hwithin fun h => herror _ (checkPayload_exceeding h)⟩

theorem wrapViolation_illegal {d : Nat} (h : d < 1 ∨ 8 < d) (p : List Byte) :
    firstViolation [checkDevid d, checkPayload p] = some ⟨.validation, .vDevid, .value d⟩ := by
  rw [checkDevid_illegal h]
  rfl

/-- Under a legal device ID the payload check decides (`44_frame_codec.md` R123). -/
theorem wrapViolation_legal {d : Nat} (hlow : 1 ≤ d) (hhigh : d ≤ 8) (p : List Byte) :
    firstViolation [checkDevid d, checkPayload p] = checkPayload p := by
  rw [checkDevid_legal hlow hhigh, firstViolation_cons_or, firstViolation_cons_or]
  simp [firstViolation]

/-- Settles O26: an illegal device ID is the first violation; under a legal one the payload check is. -/
theorem wrapFollowsItsRule : Obligations.WrapFollowsItsRule := by
  intro d p s hready
  have he := exec_wrap hready d p
  rw [deliver_loadPb] at he
  obtain ⟨hok, herror⟩ := answers_of_deliver_validated he
  have hwithin (hlow : 1 ≤ d) (hhigh : d ≤ 8) (h : WithinPayloadMax p) :=
    hok ((wrapViolation_legal hlow hhigh p).trans (checkPayload_within h))
  refine ⟨rfl, hwithin, fun h => herror _ (wrapViolation_illegal h p), fun hlow hhigh => ?_⟩
  exact byPayloadMax_induction (hwithin hlow hhigh) fun h =>
    herror _ ((wrapViolation_legal hlow hhigh p).trans (checkPayload_exceeding h))

/-! ### The laws of the checksum -/

theorem checksum_perm {p q : List Byte} (h : p.Perm q) : checksum p = checksum q := h.foldl_eq 0

theorem checksum_append (p q : List Byte) : checksum (p ++ q) = checksum p ^^^ checksum q :=
  calc checksum (p ++ q)
      = q.foldl (fun c b => c ^^^ b) (checksum p) := List.foldl_append
    _ = q.foldl (fun c b => c ^^^ b) (checksum p ^^^ 0#8) := by rw [BitVec.xor_zero]
    _ = checksum p ^^^ checksum q := List.foldl_assoc

@[simp] theorem checksum_singleton (b : Byte) : checksum [b] = b := BitVec.zero_xor

/-- Settles O25: all but the order law follow from the checksum of a concatenation. -/
theorem checksumLaws : Obligations.ChecksumLaws := by
  refine ⟨fun _ _ => checksum_perm, checksum_append, fun p b => ?_, fun p => ?_⟩
  · have hpair : checksum [b, b] = 0#8 := (checksum_append [b] [b]).trans (by simp)
    rw [checksum_append, hpair, BitVec.xor_zero]
  · rw [checksum_append, checksum_singleton]
    exact BitVec.xor_self

/-! ### Frames -/

/-- Settles O28: each position the decoder reads holds the part of the frame that it takes it for. -/
theorem unframeRecoversFrame : Obligations.UnframeRecoversFrame := by
  intro d p hlow hhigh
  have hd : d < 10 := by omega
  obtain ⟨hlength, -, hpayload, hsum, htail⟩ := frameLayout d p hlow hhigh
  have hparts := frame_eq_append p hd
  have hopen : (frame d p).take 3 = [0x3C, 0x49, 0x44] := by simp [hparts]
  have hid : ((frame d p).drop 3).take 2 = hex2 d := by simp [hparts, hex2_of_lt_ten hd]
  have hmark : (frame d p)[5]? = some 0x3E := by simp [hparts]
  have hidValue : hexPair (hex2 d) = some d := hexPair_hex2 (by omega)
  have hsumValue := hexPair_hex2 (checksum p).isLt
  simp [unframe, hlength, hopen, hmark, htail, hid, hidValue, hsum, hsumValue, hpayload]

theorem idFrame_of_lt_ten {n : Nat} (h : n < 10) :
    idFrame n = [0x3C, 0x49, 0x44, 0x3E, 0x3C, 0x30, byte (0x30 + n), 0x3E, 0x3C, 0x45, 0x3E] := by
  simp [idFrame, hex2_of_lt_ten h]

/-- Settles O29: the only check of WRAPID is that of the ID, and a legal ID has one decimal digit. -/
theorem wrapidFollowsItsRule : Obligations.WrapidFollowsItsRule := by
  intro n s hready
  obtain ⟨hok, herror⟩ := answers_of_deliver_validated (exec_wrapid hready n)
  refine ⟨rfl, fun hlow hhigh => ?_, fun h => herror _ (checkDevid_illegal h)⟩
  rw [← idFrame_of_lt_ten (by omega)]
  exact hok (checkDevid_legal hlow hhigh)

/-! ### WRAP and SEND -/

theorem exec_wrap_admitted {s : State} (hready : s.portReady = true) {d : Nat} (hlow : 1 ≤ d)
    (hhigh : d ≤ 8) {p : List Byte} (hp : WithinPayloadMax p) :
    exec (.wrap d p) s = .next (s.accept.complete (frame d p)) := by
  rw [exec_wrap hready, deliver_loadPb, wrapViolation_legal hlow hhigh, checkPayload_within hp,
    validated_none, deliver_ok]

theorem exec_send_admitted {s : State} (hready : s.portReady = true) {d : Nat}
    (hd : s.devid = some d) {p : List Byte} (hp : WithinPayloadMax p) :
    exec (.send p) s = .next ((s.accept.loadPb p).startSend (frame d p) ackToken) := by
  have hsess : s.accept.sess = .opened d := (s.accept_sess).trans (devid_eq_some_iff.1 hd)
  rw [exec_send hready, withDevid_opened hsess, checkPayload_within hp]
  rfl

/-- Settles O55: OUT of the one and FB of the other are the frame under DEVID. -/
theorem wrapGivesTheFrameSendWrites : Obligations.WrapGivesTheFrameSendWrites :=
  fun p _ d hready hd hlow hhigh hp =>
    ⟨_, _, exec_wrap_admitted hready hlow hhigh hp, exec_send_admitted hready hd hp, rfl,
      frame_length d p⟩

end Sys2Proof.Machine

namespace Sys2Proof.Machine

/-! ### The start of a send -/

section

variable {s : State} {i : Instr} {d : Nat}

/-- Operation `i` starts a send of frame `f` with token `x`, whose success leaves the device ID `d`
(`45_transport.md` R132, R145). -/
def StartsSend (i : Instr) (s : State) (f x : List Byte) (d : Nat) : Prop :=
  ∃ t, exec i s = .next t ∧ SameButBuffers t (s.started f x) ∧ t.confirmedSess = .opened d

theorem StartsSend.answers {f x : List Byte} (h : StartsSend i s f x d) :
    Answers i s (s.started f x) := by
  obtain ⟨t, he, hsame, -⟩ := h
  exact ⟨t, he, hsame⟩

theorem SameButBuffers.eq_started {t : State} {f x : List Byte}
    (h : SameButBuffers t (s.started f x)) : ∃ txt img pb newId,
      t = { s.started f x with txt := txt, img := img, pb := pb, newId := newId } :=
  ⟨_, _, _, _, h⟩

/-- An accepted operation that ends in an error leaves only the acceptance writes and RES
(`60_exceptions.md` R174). -/
theorem answers_of_raise {r : Res} (he : exec i s = .next (s.accept.raise r)) :
    Answers i s (s.settled r []) :=
  ⟨_, he, rfl⟩

/-- The session check comes before everything else of a sending operation (`46_session_control.md` R165). -/
theorem answers_closed {body : Nat → State → State} (he : exec i s = .next (s.accept.withDevid body))
    (hclosed : s.sess = .closed) : Answers i s (s.settled ⟨.refused, .fClosed, .none⟩ []) :=
  answers_of_raise (he.trans (by rw [withDevid_closed (s.accept_sess.trans hclosed)]; rfl))

theorem exec_opened {body : Nat → State → State} (he : exec i s = .next (s.accept.withDevid body))
    (hd : s.devid = some d) : exec i s = .next (body d s.accept) := by
  rw [he, withDevid_opened (s.accept_sess.trans (devid_eq_some_iff.1 hd))]

/-- A payload that passed its check is framed under DEVID and sent with the token `"ACK"`
(`45_transport.md` R140); IMG may hold an image. -/
theorem startsSend_of_sendPayload {image p : List Byte} (hd : s.devid = some d)
    (he : exec i s = .next ((s.accept.loadImg image).sendPayload d (.ok p))) :
    StartsSend i s (frame d p) ackToken d :=
  ⟨_, he, rfl, devid_eq_some_iff.1 hd⟩

/-- The two ends of the acceptance of a send whose payload is built from checked operands. -/
theorem sendPayload_fields {fields : List Field} {image p : List Byte} (hd : s.devid = some d)
    (he : exec i s = .next ((s.accept.loadImg image).sendPayload d
      (validated (firstViolation (fields.map fieldCheck)) p))) :
    (AllInDomain fields → StartsSend i s (frame d p) ackToken d) ∧
    (∀ r, FirstViolation fields r → Answers i s (s.settled r [])) := by
  obtain ⟨hlegal, hfirst⟩ := validated_fields fields p
  constructor
  · intro hfields
    rw [hlegal hfields] at he
    exact startsSend_of_sendPayload hd he
  · intro r hr
    rw [hfirst r hr, sendPayload_error, raise_loadImg] at he
    exact answers_of_raise he

theorem startsSend_send (hready : s.portReady = true) (hd : s.devid = some d) {p : List Byte}
    (hp : WithinPayloadMax p) : StartsSend (.send p) s (frame d p) ackToken d :=
  startsSend_of_sendPayload (image := []) hd (exec_send_admitted hready hd hp)

theorem sendsc_opened (hready : s.portReady = true) (hd : s.devid = some d) (time : ClockTime) :
    (AllInDomain (clockFields time) →
      StartsSend (.sendsc time) s (frame d (clockBytes time)) ackToken d) ∧
    (∀ r, FirstViolation (clockFields time) r → Answers (.sendsc time) s (s.settled r [])) := by
  have he := exec_opened (exec_sendsc hready time) hd
  rw [buildClock_eq] at he
  exact sendPayload_fields (image := []) hd he

theorem sendt_opened (hready : s.portReady = true) (hd : s.devid = some d) (schedule : Byte)
    (start stop : DateTime) (pages : List Byte) :
    (AllInDomain (scheduleFields schedule start stop pages) →
      StartsSend (.sendt schedule start stop pages) s
        (frame d (scheduleBytes schedule start stop pages)) ackToken d) ∧
    (∀ r, FirstViolation (scheduleFields schedule start stop pages) r →
      Answers (.sendt schedule start stop pages) s (s.settled r [])) := by
  have he := exec_opened (exec_sendt hready schedule start stop pages) hd
  rw [buildSchedule_eq] at he
  exact sendPayload_fields (image := []) hd he

theorem sendg_opened (hready : s.portReady = true) (hd : s.devid = some d) (page : Byte) (block : Nat)
    (image : List Byte) :
    (AllInDomain (graphicsFields page block image) →
      StartsSend (.sendg page block image) s (frame d (graphicsBytes page block image)) ackToken d) ∧
    (∀ r, FirstViolation (graphicsFields page block image) r →
      Answers (.sendg page block image) s (s.settled r [])) := by
  have he := exec_opened (exec_sendg hready page block image) hd
  rw [buildGraphics_eq] at he
  exact sendPayload_fields hd he

/-- A SETID holds its operand for the success of its send (`45_transport.md` R145). -/
theorem startsSend_setid (hready : s.portReady = true) (hd : s.devid = some d) {n : Nat} (hlow : 1 ≤ n)
    (hhigh : n ≤ 8) : StartsSend (.setid n) s (idFrame n) (hex2 n) n := by
  have he := exec_opened (exec_setid hready n) hd
  rw [checkDevid_legal hlow hhigh] at he
  exact ⟨_, he, rfl, confirmedSess_some (d := d) rfl (devid_eq_some_iff.1 hd)⟩

/-- Each of the five sending operations with legal operands starts its send. -/
theorem startsSend_of_sendsFrame {f x : List Byte} (hready : s.portReady = true)
    (hd : s.devid = some d) (h : SendsFrame d i f x) : StartsSend i s f x (devidAfter i d) := by
  cases i with
  | send p =>
    obtain ⟨hp, rfl, rfl⟩ := h
    exact startsSend_send hready hd hp
  | sendsc time =>
    obtain ⟨hfields, rfl, rfl⟩ := h
    exact (sendsc_opened hready hd time).1 hfields
  | sendt schedule start stop pages =>
    obtain ⟨hfields, rfl, rfl⟩ := h
    exact (sendt_opened hready hd schedule start stop pages).1 hfields
  | sendg page block image =>
    obtain ⟨hfields, rfl, rfl⟩ := h
    exact (sendg_opened hready hd page block image).1 hfields
  | setid n =>
    obtain ⟨hlow, hhigh, rfl, rfl⟩ := h
    exact startsSend_setid hready hd hlow hhigh
  | openSess | close | setcfg | esc | pack | plsc | plt | plg | csum | wrap | wrapid => exact h.elim

end

/-- Settles O32: behind the session check the payload length is the only check. -/
theorem sendStartsOrStops : Obligations.SendStartsOrStops := by
  intro p s hready
  have he := exec_send hready p
  have hwithin (d) (hd : s.devid = some d) (hp : WithinPayloadMax p) :=
    (startsSend_send hready hd hp).answers
  refine ⟨rfl, hwithin, fun d hd => ?_, answers_closed he⟩
  refine byPayloadMax_induction (hwithin d hd) fun hp => answers_of_raise ?_
  rw [exec_opened he hd, checkPayload_exceeding hp, validated_some, sendPayload_error]

/-- Settles O33: behind the session check the fields of PLSC are checked. -/
theorem sendscStartsOrStops : Obligations.SendscStartsOrStops :=
  fun time _ hready =>
    ⟨rfl, fun _ hd hfields => ((sendsc_opened hready hd time).1 hfields).answers,
      fun _ r hd => (sendsc_opened hready hd time).2 r, answers_closed (exec_sendsc hready time)⟩

/-- Settles O34: as SENDSC, with the fields of PLT. -/
theorem sendtStartsOrStops : Obligations.SendtStartsOrStops := by
  intro schedule start stop pages s hready
  have ends (d) (hd : s.devid = some d) := sendt_opened hready hd schedule start stop pages
  exact ⟨rfl, fun d hd hfields => ((ends d hd).1 hfields).answers, fun d r hd => (ends d hd).2 r,
    answers_closed (exec_sendt hready schedule start stop pages)⟩

/-- Settles O35: as SENDSC, with the fields of PLG. -/
theorem sendgStartsOrStops : Obligations.SendgStartsOrStops := by
  intro page block image s hready
  have ends (d) (hd : s.devid = some d) := sendg_opened hready hd page block image
  exact ⟨rfl, fun d hd hfields => ((ends d hd).1 hfields).answers, fun d r hd => (ends d hd).2 r,
    answers_closed (exec_sendg hready page block image)⟩

/-- Settles O36: the ID is checked after the session. -/
theorem setidStartsOrStops : Obligations.SetidStartsOrStops := by
  intro n s hready
  have he := exec_setid hready n
  refine ⟨rfl, fun d hd hlow hhigh => (startsSend_setid hready hd hlow hhigh).answers,
    fun d hd hn => answers_of_raise ?_, answers_closed he⟩
  rw [exec_opened he hd, checkDevid_illegal hn]

end Sys2Proof.Machine

namespace Sys2Proof.Machine

/-! ### The transitions of a running send -/

section

variable {s : State}

theorem step_sending (hreset : s.resetReq = false) (hst : s.st = .sending) :
    step s = .next (sendingStep s) := by
  rw [step_busy hreset ((portBusy_iff s).2 (.inl hst)), transportStep_sending hst]

theorem step_awaitingAck (hreset : s.resetReq = false) (hst : s.st = .awaitingAck) :
    step s = .next (awaitStep s) := by
  rw [step_busy hreset ((portBusy_iff s).2 (.inr (.inl hst))), transportStep_awaiting hst]

theorem step_retrying (hreset : s.resetReq = false) (hst : s.st = .retrying) :
    step s = .next (retryStep s) := by
  rw [step_busy hreset ((portBusy_iff s).2 (.inr (.inr hst))), transportStep_retrying hst]

theorem awaitStep_match (h : s.chAnswer s.exp.length = s.exp) :
    awaitStep s = (s.chRead s.exp.length).succeed := if_pos h

theorem awaitStep_mismatch (h : s.chAnswer s.exp.length ≠ s.exp) :
    awaitStep s = drainStep (s.chAnswer s.exp.length) (s.chRead s.exp.length) := if_neg h

theorem retryStep_again (h : s.att < s.maxRetry) : retryStep s = { s with st := .sending } := if_pos h

theorem retryStep_last (h : s.maxRetry ≤ s.att) : retryStep s = s.fail := if_neg (Nat.not_lt.2 h)

end

/-- Settles O37: the transition out of Sending is that state. -/
theorem sendingWritesWholeFrame : Obligations.SendingWritesWholeFrame :=
  fun _ => step_sending

/-- Settles O38: the answer `r` of the acknowledgement read decides, and `g` is the answer to the read after
it. -/
theorem awaitingAckMatchesOrDrains : Obligations.AwaitingAckMatchesOrDrains := by
  intro s hreset hst
  refine ⟨s.chAnswer s.exp.length, (s.chRead s.exp.length).chAnswer 1000, awaitStep s,
    chAnswer_length_le _ _, chAnswer_length_le _ _, step_awaitingAck hreset hst,
    fun a rest hscript => chAnswer_of_script hscript _,
    fun a b rest hscript => chAnswer_of_script (rest := rest) (by simp [hscript]) _,
    fun hmatch => ?_, fun hmismatch => ?_⟩
  · rw [awaitStep_match hmatch]
    exact ⟨rfl, rfl, rfl, rfl, rfl, rfl, rfl, rfl⟩
  · rw [awaitStep_mismatch hmismatch]
    exact ⟨rfl, rfl, rfl, rfl, rfl, rfl, rfl, rfl, by simp [drainStep, drainMax]⟩

/-- Settles O39, by the two branches of Retrying. -/
theorem retryingCountsAttempts : Obligations.RetryingCountsAttempts := by
  intro s hreset hst
  rw [step_retrying hreset hst]
  exact ⟨fun hlt => by rw [retryStep_again hlt],
    fun hle => ⟨s.fail, by rw [retryStep_last hle], rfl⟩⟩

end Sys2Proof.Machine

namespace Sys2Proof.Machine

/-! ### One attempt

From Sending, two steps write the frame and await its answer; ST is then Success or Retrying. -/

section

variable {s : State}

/-- The state after one attempt: the frame is written and its answer judged (`45_transport.md` R134 to
R136). -/
def State.attempt (s : State) : State := awaitStep (sendingStep s)

theorem steps_attempt (hreset : s.resetReq = false) (hst : s.st = .sending) :
    steps 2 s = .next s.attempt := by
  rw [steps_succ (step_sending hreset hst)]
  exact steps_succ (k := 0) (step_awaitingAck hreset rfl)

theorem attempt_acked (h : s.chAnswer s.exp.length = s.exp) :
    s.attempt = ((sendingStep s).chRead s.exp.length).succeed :=
  awaitStep_match (s := sendingStep s) h

theorem attempt_missed (h : s.chAnswer s.exp.length ≠ s.exp) :
    s.attempt = drainStep (s.chAnswer s.exp.length) ((sendingStep s).chRead s.exp.length) :=
  awaitStep_mismatch (s := sendingStep s) h

/-- The step after a failed attempt goes out of Retrying. -/
theorem steps_attempt_missed (hreset : s.resetReq = false) (hst : s.st = .sending)
    (h : s.chAnswer s.exp.length ≠ s.exp) : steps 3 s = .next (retryStep s.attempt) := by
  have hattempt : s.attempt.resetReq = false ∧ s.attempt.st = .retrying := by
    rw [attempt_missed h]
    exact ⟨hreset, rfl⟩
  rw [steps_add (m := 2) (n := 1) (steps_attempt hreset hst)]
  exact steps_succ (k := 0) (step_retrying hattempt.1 hattempt.2)

/-! ### The procedure of R147 -/

theorem sendLoop_acked (n : Nat) (h : s.chAnswer s.exp.length = s.exp) :
    sendLoop (n + 1) s = s.attempt := by
  rw [attempt_acked h]
  exact if_pos h

/-- A round that is not acknowledged ends as Retrying does (`45_transport.md` R138). -/
theorem sendLoop_missed (n : Nat) (hst : s.st = .sending) (h : s.chAnswer s.exp.length ≠ s.exp) :
    sendLoop (n + 1) s =
      if s.att + 1 < s.maxRetry then sendLoop n { s.attempt with st := .sending } else s.attempt.fail := by
  rw [attempt_missed h, ← hst]
  exact if_neg h

/-- The send has ended (`45_transport.md` R131). -/
def State.Ended (s : State) : Prop := s.st = .success ∨ s.st = .failed

/-- With fuel for this attempt and for every other that is left, the steps of the machine reach the end of
the procedure. -/
theorem steps_sendLoop (fuel : Nat) : ∀ s : State, s.resetReq = false → s.st = .sending →
    1 ≤ fuel → s.maxRetry - s.att ≤ fuel →
    ∃ k, k ≤ 3 * fuel ∧ steps k s = .next (sendLoop fuel s) ∧ (sendLoop fuel s).Ended := by
  induction fuel with
  | zero => exact fun _ _ _ hpos => absurd hpos (by decide)
  | succ n ih =>
    intro s hreset hst _ hfuel
    by_cases hack : s.chAnswer s.exp.length = s.exp
    · refine ⟨2, by omega, ?_⟩
      rw [sendLoop_acked n hack]
      exact ⟨steps_attempt hreset hst, .inl (by rw [attempt_acked hack]; rfl)⟩
    have hsteps := steps_attempt_missed hreset hst hack
    obtain ⟨hreset', hatt, hmax⟩ : s.attempt.resetReq = false ∧ s.attempt.att = s.att + 1 ∧
        s.attempt.maxRetry = s.maxRetry := by
      rw [attempt_missed hack]
      exact ⟨hreset, rfl, rfl⟩
    rw [sendLoop_missed n hst hack]
    split
    next hagain =>
      rw [retryStep_again (by omega)] at hsteps
      obtain ⟨k, hk, hrun, hended⟩ :=
        ih { s.attempt with st := .sending } hreset' rfl (by omega) (by simp only [hatt, hmax]; omega)
      exact ⟨3 + k, by omega, (steps_add hsteps).trans hrun, hended⟩
    next hlast =>
      rw [retryStep_last (by omega)] at hsteps
      exact ⟨3, by omega, hsteps, .inr rfl⟩

/-! ### The end of a send within a number of steps -/

/-- Some run of at most `n` steps ends the send. -/
def State.EndsWithin (n : Nat) (s : State) : Prop :=
  ∃ k u, k ≤ n ∧ steps k s = .next u ∧ u.Ended

theorem State.Ended.endsWithin (h : s.Ended) (n : Nat) : s.EndsWithin n :=
  ⟨0, s, Nat.zero_le n, steps_zero s, h⟩

theorem State.EndsWithin.of_step {n : Nat} {t : State} (hstep : step s = .next t)
    (h : t.EndsWithin n) : s.EndsWithin (n + 1) := by
  obtain ⟨k, u, hk, hrun, hended⟩ := h
  exact ⟨k + 1, u, Nat.succ_le_succ hk, (steps_succ hstep).trans hrun, hended⟩

theorem State.EndsWithin.mono {m n : Nat} (h : s.EndsWithin m) (hmn : m ≤ n) : s.EndsWithin n := by
  obtain ⟨k, u, hk, hrun⟩ := h
  exact ⟨k, u, hk.trans hmn, hrun⟩

theorem endsWithin_of_sending {fuel : Nat} (hreset : s.resetReq = false) (hst : s.st = .sending)
    (hpos : 1 ≤ fuel) (hfuel : s.maxRetry - s.att ≤ fuel) : s.EndsWithin (3 * fuel) := by
  obtain ⟨k, hk, hrun, hended⟩ := steps_sendLoop fuel s hreset hst hpos hfuel
  exact ⟨k, _, hk, hrun, hended⟩

theorem endsWithin_of_retrying (hreset : s.resetReq = false) (hst : s.st = .retrying) :
    s.EndsWithin (3 * (s.maxRetry - s.att) + 1) := by
  refine State.EndsWithin.of_step (step_retrying hreset hst) ?_
  by_cases hagain : s.att < s.maxRetry
  · rw [retryStep_again hagain]
    exact endsWithin_of_sending hreset rfl (Nat.sub_pos_of_lt hagain) le_rfl
  · rw [retryStep_last (Nat.not_lt.1 hagain)]
    exact State.Ended.endsWithin (.inr rfl) _

theorem endsWithin_of_awaitingAck (hreset : s.resetReq = false) (hst : s.st = .awaitingAck) :
    s.EndsWithin (3 * (s.maxRetry - s.att) + 2) := by
  refine State.EndsWithin.of_step (step_awaitingAck hreset hst) ?_
  by_cases hmatch : s.chAnswer s.exp.length = s.exp
  · rw [awaitStep_match hmatch]
    exact State.Ended.endsWithin (.inl rfl) _
  · rw [awaitStep_mismatch hmatch]
    exact endsWithin_of_retrying (s := drainStep _ (s.chRead _)) hreset rfl

end

/-- Settles O42: from Sending the procedure bounds the run, and the other two busy states are a step or two
away from it or from the end. -/
theorem everySendEnds : Obligations.EverySendEnds := by
  intro s hreset hbusy
  show s.EndsWithin _
  obtain hst | hst | hst := (portBusy_iff s).1 hbusy
  · exact endsWithin_of_sending hreset hst (Nat.le_add_left 1 _) (Nat.le_succ _)
  · exact (endsWithin_of_awaitingAck hreset hst).mono (Nat.le_succ _)
  · exact (endsWithin_of_retrying hreset hst).mono (by omega)

/-- Settles O43, by the rounds of the procedure. -/
theorem machineEqualsProcedure : Obligations.MachineEqualsProcedure :=
  fun s hreset hst hleft => steps_sendLoop _ s hreset hst (Nat.sub_pos_of_lt hleft) le_rfl

end Sys2Proof.Machine

namespace Sys2Proof.Machine

/-! ### Whole sends with a script of answers -/

section

variable {s : State} {m : List Byte × List Byte} {misses : List (List Byte × List Byte)}
  {answer : List Byte} {rest : List (List Byte)}

/-- What failed attempts leave behind, ST apart: ATT, and the channel's history, log and inputs
(`45_transport.md` R134 to R137). -/
def State.afterMisses (misses : List (List Byte × List Byte)) (s : State) : State :=
  { s with
    att := s.att + misses.length
    hist := s.hist ++ missEvents s.fb s.exp.length s.timeout misses
    log := s.log ++ missLogs s.exp.length misses
    script := s.script.drop (2 * misses.length)
    reads := s.reads + 2 * misses.length }

/-- The state after an acknowledged attempt, `rest` being the answers that the script still holds
(`45_transport.md` R144, R145). -/
def State.afterAck (rest : List (List Byte)) (s : State) : State :=
  { s.releaseBuffers with
    st := .success
    att := s.att + 1
    res := .acked (s.att + 1)
    sess := s.confirmedSess
    hist := s.hist ++ [.write s.fb, .read s.exp.length s.timeout s.exp]
    script := rest
    reads := s.reads + 1 }

theorem afterMisses_nil (s : State) : s.afterMisses [] = s := by
  simp [State.afterMisses, missEvents, missLogs]

theorem afterMisses_append (misses more : List (List Byte × List Byte)) (s : State) :
    s.afterMisses (misses ++ more) = (s.afterMisses misses).afterMisses more := by
  simp [State.afterMisses, missEvents, missLogs, Nat.mul_add, Nat.add_assoc]

theorem missScript_length (misses : List (List Byte × List Byte)) :
    (missScript misses).length = 2 * misses.length := by
  simp [missScript, List.length_flatMap, Nat.mul_comm]

theorem afterMisses_cons (m : List Byte × List Byte) (misses : List (List Byte × List Byte))
    (s : State) : s.afterMisses (m :: misses) = (s.afterMisses [m]).afterMisses misses :=
  afterMisses_append [m] misses s

theorem afterMisses_confirmedSess (misses : List (List Byte × List Byte)) (s : State) :
    (s.afterMisses misses).confirmedSess = s.confirmedSess := rfl

theorem afterMisses_script (h : s.script = missScript misses ++ rest) :
    (s.afterMisses misses).script = rest := by
  simp [State.afterMisses, h, ← missScript_length]

/-- A failed attempt: the script answers its two reads, the first one not with the token. -/
theorem attempt_scripted_miss (hscript : s.script = m.1 :: m.2 :: rest)
    (hmiss : m.1.take s.exp.length ≠ s.exp) :
    s.chAnswer s.exp.length ≠ s.exp ∧ s.attempt = { s.afterMisses [m] with st := .retrying } := by
  have hack : s.chAnswer s.exp.length = m.1.take s.exp.length := chAnswer_of_script hscript _
  have hdrain : ((sendingStep s).chRead s.exp.length).chAnswer 1000 = m.2.take 1000 :=
    chAnswer_of_script (rest := rest) (congrArg List.tail hscript) _
  have hne : s.chAnswer s.exp.length ≠ s.exp := hack ▸ hmiss
  refine ⟨hne, ?_⟩
  rw [attempt_missed hne, drainStep, drainMax, hdrain, hack]
  simp [State.afterMisses, missEvents, missLogs, State.chRead, State.logEvent, sendingStep,
    State.chWrite, hscript, State.chAnswer]

/-- An acknowledged attempt: the script answers its one read with the token. -/
theorem attempt_scripted_ack (hscript : s.script = answer :: rest)
    (hanswer : answer.take s.exp.length = s.exp) : s.attempt = s.afterAck rest := by
  have hack : s.chAnswer s.exp.length = s.exp := (chAnswer_of_script hscript _).trans hanswer
  rw [attempt_acked hack]
  simp [State.afterAck, State.succeed, State.chRead, sendingStep, State.chWrite, State.chAnswer,
    State.releaseBuffers, State.confirmedSess, hscript, hanswer]

/-- A failed attempt goes on to Sending or ends the send, as R138 says. -/
theorem steps_scripted_miss (hreset : s.resetReq = false) (hst : s.st = .sending)
    (hscript : s.script = m.1 :: m.2 :: rest) (hmiss : m.1.take s.exp.length ≠ s.exp) :
    steps 3 s =
      .next (if s.att + 1 < s.maxRetry then s.afterMisses [m] else (s.afterMisses [m]).fail) := by
  obtain ⟨hne, hattempt⟩ := attempt_scripted_miss hscript hmiss
  rw [steps_attempt_missed hreset hst hne, hattempt]
  split
  next hagain =>
    rw [retryStep_again hagain, ← hst]
    rfl
  next hlast =>
    rw [retryStep_last (Nat.not_lt.1 hlast)]
    rfl

/-- Failed attempts with another one left after each end in Sending again. -/
theorem steps_misses (misses : List (List Byte × List Byte)) :
    ∀ s : State, s.resetReq = false → s.st = .sending → s.att + misses.length < s.maxRetry →
      AllMiss s.exp misses → s.script = missScript misses ++ rest →
      steps (3 * misses.length) s = .next (s.afterMisses misses) := by
  induction misses with
  | nil => exact fun s _ _ _ _ _ => by rw [afterMisses_nil]; rfl
  | cons m misses ih =>
    intro s hreset hst hleft hmiss hscript
    obtain ⟨hm, hmisses⟩ := List.forall_mem_cons.1 hmiss
    have hfirst : steps 3 s = .next (s.afterMisses [m]) := by
      rw [steps_scripted_miss hreset hst hscript hm, if_pos (by rw [List.length_cons] at hleft; omega)]
    rw [List.length_cons, Nat.mul_succ, Nat.add_comm, steps_add hfirst,
      afterMisses_cons m misses]
    refine ih (s.afterMisses [m]) hreset hst ?_ hmisses (afterMisses_script (misses := [m]) hscript)
    simpa [State.afterMisses, Nat.add_assoc, Nat.add_comm 1] using hleft

/-- Failed attempts and then an acknowledged one end in Success (`45_transport.md` R144). -/
theorem steps_misses_acked (hreset : s.resetReq = false) (hst : s.st = .sending)
    (hleft : s.att + misses.length < s.maxRetry) (hmiss : AllMiss s.exp misses)
    (hscript : s.script = missScript misses ++ answer :: rest)
    (hanswer : answer.take s.exp.length = s.exp) :
    steps (3 * misses.length + 2) s = .next ((s.afterMisses misses).afterAck rest) := by
  have hrun := steps_misses misses s hreset hst hleft hmiss hscript
  rw [steps_add hrun, steps_attempt (s := s.afterMisses misses) hreset hst,
    attempt_scripted_ack (afterMisses_script hscript) hanswer]

/-- Failed attempts that use up MAXRETRY end in Failed. -/
theorem steps_all_missed (hreset : s.resetReq = false) (hst : s.st = .sending)
    (hne : misses ≠ []) (hall : s.att + misses.length = s.maxRetry) (hmiss : AllMiss s.exp misses)
    (hscript : s.script = missScript misses ++ rest) :
    steps (3 * misses.length) s = .next (s.afterMisses misses).fail := by
  obtain ⟨init, m, rfl⟩ := (List.eq_nil_or_concat' misses).resolve_left hne
  obtain ⟨hinit, hm⟩ := List.forall_mem_append.1 hmiss
  rw [List.length_append, List.length_singleton] at hall ⊢
  have hscript' : s.script = missScript init ++ m.1 :: m.2 :: rest := by simp [hscript, missScript]
  have hrun := steps_misses init s hreset hst (by omega) hinit hscript'
  have hlast : ¬ (s.afterMisses init).att + 1 < (s.afterMisses init).maxRetry := by
    simp only [State.afterMisses]
    omega
  rw [Nat.mul_succ, steps_add hrun, steps_scripted_miss (s := s.afterMisses init) hreset hst
    (afterMisses_script hscript') (hm m (List.mem_singleton_self m)), if_neg hlast, afterMisses_append]

end

/-- Settles O40: the operation starts its send, the misses go by, and the next attempt is acknowledged. -/
theorem sendSucceedsAtMatchingAttempt : Obligations.SendSucceedsAtMatchingAttempt := by
  intro i s d f x misses answer rest hready hreset hd hsends hleft hmiss hanswer hscript
  obtain ⟨t, he, hsame, hsess⟩ := startsSend_of_sendsFrame hready hd hsends
  obtain ⟨txt, img, pb, newId, rfl⟩ := hsame.eq_started
  refine ⟨_, _, he, steps_misses_acked hreset rfl ?_ hmiss hscript hanswer, ?_⟩
  · simpa [State.started] using hleft
  · rw [SameButBuffers, State.afterAck, afterMisses_confirmedSess, hsess]
    simp [State.started, State.afterMisses, Res.acked]

/-- Settles O41: the operation starts its send, and the misses use up MAXRETRY. -/
theorem sendFailsAfterMaxRetryAttempts : Obligations.SendFailsAfterMaxRetryAttempts := by
  intro i s d f x misses rest hready hreset hd hsends hpos hall hmiss hscript
  obtain ⟨t, he, hsame, -⟩ := startsSend_of_sendsFrame hready hd hsends
  obtain ⟨txt, img, pb, newId, rfl⟩ := hsame.eq_started
  rw [← hall] at hpos ⊢
  refine ⟨_, _, he, steps_all_missed hreset rfl (List.length_pos_iff.1 hpos) ?_ hmiss hscript, ?_⟩
  · simpa [State.started] using hall
  · simp [SameButBuffers, State.started, State.afterMisses, State.fail, State.releaseBuffers, Res.noAck,
      ← hall, hscript, ← missScript_length]

end Sys2Proof.Machine

namespace Sys2Proof.Machine

/-! ### The port during a send

A transition neither reads nor writes the presented records. -/

section

variable {s : State}

theorem awaitStep_pending (p : List (List Byte)) :
    awaitStep { s with pending := p } = { awaitStep s with pending := p } := by
  by_cases h : s.chAnswer s.exp.length = s.exp
  · rw [awaitStep_match h, awaitStep_match (s := { s with pending := p }) h]
    rfl
  · rw [awaitStep_mismatch h, awaitStep_mismatch (s := { s with pending := p }) h]
    rfl

theorem retryStep_pending (p : List (List Byte)) :
    retryStep { s with pending := p } = { retryStep s with pending := p } := by
  obtain h | h := Nat.lt_or_ge s.att s.maxRetry
  · rw [retryStep_again h, retryStep_again (s := { s with pending := p }) h]
  · rw [retryStep_last h, retryStep_last (s := { s with pending := p }) h]
    rfl

/-- The send takes its transition whatever is presented (`46_session_control.md` R163). -/
theorem transportStep_pending (hbusy : s.portReady = false) (p : List (List Byte)) :
    transportStep { s with pending := p } = { transportStep s with pending := p } := by
  obtain hst | hst | hst := (portBusy_iff s).1 hbusy
  · rw [transportStep_sending hst, transportStep_sending (s := { s with pending := p }) hst]
    rfl
  · rw [transportStep_awaiting hst, transportStep_awaiting (s := { s with pending := p }) hst,
      awaitStep_pending]
  · rw [transportStep_retrying hst, transportStep_retrying (s := { s with pending := p }) hst,
      retryStep_pending]

end

/-- Settles O6: a busy block's step is its send's transition, with which a change of the presented records
commutes. -/
theorem presentedOperationWaitsDuringSend : Obligations.PresentedOperationWaitsDuringSend := by
  intro s hreset hbusy
  obtain ⟨-, -, -, -, -, -, hpending, -⟩ := transportStep_frame s
  refine ⟨transportStep s, step_busy hreset hbusy, hpending, fun p => ?_⟩
  rw [step_busy (s := { s with pending := p }) hreset hbusy, transportStep_pending hbusy]

/-- Settles O48: each meaning is an acceptance, and a busy port accepts nothing. -/
theorem noOperationActsWhileBusy : Obligations.NoOperationActsWhileBusy :=
  fun i _ hbusy => exec_busy hbusy i

/-! ### The port of a ready block -/

/-- An accepted state is ready, and a second acceptance writes nothing new. -/
theorem whenReady_accept {s : State} (hready : s.portReady = true) (body : State → State) :
    whenReady s body = whenReady s.accept body := whenReady_ready hready body

/-- An operation sees of a ready block only what the acceptance writes leave (`46_session_control.md` R164). -/
theorem exec_accept {s : State} (hready : s.portReady = true) (i : Instr) :
    exec i s = exec i s.accept := by
  cases i <;> simp only [exec, execOpen, execClose, execSetcfg, execEsc, execPack, execPlsc, execPlt,
    execPlg, execCsum, execWrap, execWrapid, execSend, execSendsc, execSendt, execSendg, execSetid,
    whenReady_accept hready]

/-- Settles O49: the acceptance writes cover every register of an earlier outcome. -/
theorem outcomeIgnoresEarlierResults : Obligations.OutcomeIgnoresEarlierResults := by
  intro i s st att fb exp out pb img txt res newId hready hst
  rw [exec_accept hready, exec_accept ((portReady_iff _).2 hst)]
  rfl

/-- A record without further bytes leaves the records presented after it. -/
theorem takeRecord_nil {s : State} {record : List Byte} {later : List (List Byte)}
    (hp : s.pending = record :: later) : s.takeRecord [] = { s with pending := later } := by
  simp [State.takeRecord, leftover, hp]

/-- Settles O5: the port offers the operation, and its record is taken. -/
theorem stepRunsDecodedOperation : Obligations.StepRunsDecodedOperation := by
  intro s record later i hreset hready hp hdecode
  rw [step_operation hreset hready hp hdecode, takeRecord_nil hp]

/-! ### What the outside does, and the invariant -/

section

variable {s : State}

theorem State.Inv.offer (h : s.Inv) (record : List Byte) : (s.offer record).Inv := { h with }

theorem State.Inv.assertReset (h : s.Inv) : s.assertReset.Inv := { h with }

theorem State.Inv.answerWith (h : s.Inv) (answers : List (List Byte)) :
    (s.answerWith answers).Inv := { h with }

end

/-- Settles O47: the invariant speaks of none of the fields that the outside writes. -/
theorem outsideInputsKeepInvariant : Obligations.OutsideInputsKeepInvariant :=
  fun _ h record answers => ⟨h.offer record, h.assertReset, h.answerWith answers⟩

/-! ### Session control at a ready port -/

theorem sess_ne_closed_iff {s : State} : s.sess ≠ .closed ↔ ∃ d, s.sess = .opened d := by
  cases s.sess <;> simp

theorem checkMaxRetry_legal {m : Nat} (hlow : 1 ≤ m) (hhigh : m ≤ 255) : checkMaxRetry m = none :=
  within_eq_none_iff.2 ⟨hlow, hhigh⟩

theorem checkMaxRetry_zero : checkMaxRetry 0 = some ⟨.validation, .vMaxRetry, .value 0⟩ :=
  within_eq_some_iff.2 ⟨by decide, rfl⟩

/-- Settles O13: the session is checked, then the device ID. -/
theorem openFollowsItsRule : Obligations.OpenFollowsItsRule := by
  intro d s hready
  have he := exec_openSess hready d
  refine ⟨rfl, fun hclosed hlow hhigh => ?_, fun hclosed hd => ?_, fun hopen => ?_⟩
  · rw [hclosed, checkDevid_legal hlow hhigh] at he
    exact ⟨_, he, rfl⟩
  · rw [hclosed, checkDevid_illegal hd] at he
    exact answers_of_raise he
  · obtain ⟨e, hsess⟩ := sess_ne_closed_iff.1 hopen
    rw [hsess] at he
    exact answers_of_raise he

/-- Settles O14: the session check is the only one. -/
theorem closeFollowsItsRule : Obligations.CloseFollowsItsRule := by
  intro s hready
  have he := exec_close hready
  refine ⟨rfl, fun hopen => ?_, fun hclosed => ?_⟩
  · obtain ⟨e, hsess⟩ := sess_ne_closed_iff.1 hopen
    rw [hsess] at he
    exact ⟨_, he, rfl⟩
  · rw [hclosed] at he
    exact answers_of_raise he

/-- Settles O15: the check of maxRetry is the only one, and 0 fails it. -/
theorem setcfgFollowsItsRule : Obligations.SetcfgFollowsItsRule := by
  intro m t s hready
  have he := exec_setcfg hready m t
  refine ⟨rfl, fun hlow hhigh => ?_, ?_⟩
  · rw [checkMaxRetry_legal hlow hhigh] at he
    exact ⟨_, he, rfl⟩
  · rintro rfl
    rw [checkMaxRetry_zero] at he
    exact answers_of_raise he

end Sys2Proof.Machine

namespace Sys2Proof.Machine

/-! ### How an accepted operation ends -/

/-- The accepted cases by their ending: an error is taken, the operation completes, or its send has started
(`60_exceptions.md` R170, R179). -/
theorem AcceptedCases.ending {i : Instr} {s t : State} (h : AcceptedCases i s t) :
    (∃ r, IsError r ∧ t = s.accept.raise r) ∨
    (t.st = .idle ∧ t.res.cls = .ok) ∨
    (t.st = .sending ∧ t.res.cls = .none ∧ t.out = []) := by
  obtain herror | ⟨b, -, rfl⟩ | ⟨d, -, -, -, -, rfl⟩ | ⟨d, -, -, rfl⟩ | ⟨m, c, -, -, -, rfl⟩ |
    ⟨d, g, p, -, rfl⟩ | ⟨d, n, -, -, -, -, rfl⟩ := h
  case inl => exact .inl herror
  case inr.inr.inr.inr.inr.inl | inr.inr.inr.inr.inr.inr => exact .inr (.inr ⟨rfl, rfl, rfl⟩)
  all_goals exact .inr (.inl ⟨rfl, rfl⟩)

/-- Settles O50: only the ending that takes an error shows an error class, and it delivers an error to the
accepted state. -/
theorem errorsArePrecise : Obligations.ErrorsArePrecise := by
  intro i s t hready he herror
  obtain ⟨r, -, rfl⟩ | ⟨-, hok⟩ | ⟨-, hnone, -⟩ := (exec_cases hready he).ending
  · exact sameButBuffers_deliver (.error r) s
  · simp [hok] at herror
  · simp [hnone] at herror

/-- Settles O51, by the three endings. -/
theorem everyOperationReportsItsResult : Obligations.EveryOperationReportsItsResult := by
  intro i s t hready he
  obtain ⟨r, hr, rfl⟩ | ⟨hidle, hok⟩ | hstarted := (exec_cases hready he).ending
  · exact .inr ⟨rfl, .inr hr, fun _ => rfl⟩
  · exact .inr ⟨hidle, .inl hok, fun hne => absurd hok hne⟩
  · exact .inl hstarted

/-! ### A port that offers nothing -/

theorem fetch_of_pending_nil {s : State} (hp : s.pending = []) : fetch s = .nothing := by
  simp [fetch, hp]

theorem fetch_of_truncated {s : State} {record : List Byte} {later : List (List Byte)}
    (hp : s.pending = record :: later) (hdecode : decode record = .error .truncated) :
    fetch s = .nothing := by
  simp [fetch, hp, hdecode]

theorem step_of_fetch_nothing {s : State} (hreset : s.resetReq = false) (hready : s.portReady = true)
    (hfetch : fetch s = .nothing) : step s = .next s := by
  simp [step, hreset, hready, hfetch]

/-- Settles O7: in both cases the port offers nothing. -/
theorem idleBlockStays : Obligations.IdleBlockStays :=
  fun _ hreset hready =>
    ⟨fun hp => step_of_fetch_nothing hreset hready (fetch_of_pending_nil hp),
      fun _ _ hp hdecode => step_of_fetch_nothing hreset hready (fetch_of_truncated hp hdecode)⟩

/-! ### Several framers -/

/-- Everything a step of instance `k` can do when it answers a next system: nothing, where there is no such
instance, or one step of that framer (`60_exceptions.md` R186). -/
theorem systemStep_cases {k : Nat} {system system' : List State}
    (h : systemStep k system = .next system') :
    (system[k]? = none ∧ system' = system) ∨
    (∃ s t, system[k]? = some s ∧ step s = .next t ∧ system' = system.set k t) := by
  unfold systemStep at h
  cases hk : system[k]? with
  | none => exact .inl ⟨rfl, by simpa [hk] using h.symm⟩
  | some s =>
    cases hstep : step s with
    | next t => exact .inr ⟨s, t, rfl, hstep, by simpa [hk, hstep] using h.symm⟩
    | fault r => simp [hk, hstep] at h
    | refused r => simp [hk, hstep] at h

/-- Settles O56: the system is written at index `k` only. -/
theorem instancesShareNothing : Obligations.InstancesShareNothing := by
  intro k j system system' h hne
  obtain ⟨-, rfl⟩ | ⟨s, t, -, -, rfl⟩ := systemStep_cases h
  · exact ⟨rfl, rfl⟩
  · exact ⟨List.getElem?_set_ne hne.symm, List.length_set⟩

end Sys2Proof.Machine

namespace Sys2Proof.Machine

/-! ### The reset input -/

section

variable {s : State}

theorem step_reset_ready (hreset : s.resetReq = true) (hready : s.portReady = true) :
    step s = .next s.resetRegisters :=
  (step_reset hreset).trans (if_pos hready)

theorem step_reset_busy (hreset : s.resetReq = true) (hbusy : s.portReady = false) :
    step s = .refused .resetDuringSend :=
  (step_reset hreset).trans (if_neg (by simp [hbusy]))

end

/-- Settles O12: the reset input comes first in a step, and a busy port refuses it. -/
theorem resetDuringSendHasNoStep : Obligations.ResetDuringSendHasNoStep :=
  fun _ => step_reset_busy

/-- Settles O11: the next state is `s.resetRegisters`, whose fields are the reset values. -/
theorem resetInputRestoresRegisters : Obligations.ResetInputRestoresRegisters :=
  fun s hreset hready =>
    ⟨s.resetRegisters, step_reset_ready hreset hready, rfl, rfl, rfl, rfl, rfl, rfl, rfl, rfl, rfl, rfl,
      rfl, rfl, rfl, rfl⟩

/-- Settles O8: the one state without a step is the one `step_next_iff` leaves out, and there the reset is
refused. -/
theorem stepStopsOnlyForResetDuringSend : Obligations.StepStopsOnlyForResetDuringSend := by
  refine ⟨exec_next, fun s => ?_⟩
  by_cases hstop : s.resetReq = true ∧ s.portReady = false
  · obtain ⟨hreset, hbusy⟩ := hstop
    exact .inr ⟨hreset, hbusy, step_reset_busy hreset hbusy⟩
  · have hready : s.resetReq = true → s.portReady = true := by simpa using hstop
    exact .inl ⟨hstop, step_next_iff.2 hready⟩

end Sys2Proof.Machine
